-- ==== Sys2Proof/Word.lean ====
section
/-! DEFINITION. The two word types of the block: bytes of frames and buffers (R13) and 32-bit registers (10_state.md, section 4). -/

namespace Sys2Proof

/-- An unsigned 8-bit value (R13). -/
abbrev Byte := BitVec 8

/-- The content of a 32-bit register, and the value of a host access of up to 4 bytes (R14, R40). -/
abbrev Word := BitVec 32

end Sys2Proof
end

