-- ==== Sys2Proof/Syntax.lean ====
section
/-! DEFINITION. The commands of the block: one constructor per row of spec/opcode_table.json (R54). -/

namespace Sys2Proof

/-- The eight commands. A command word has no operand field (R52): the operands are in ARG and CMD_BUF (R53), so no
constructor has an argument. -/
inductive Instr where
  /-- STUFF, 0x01 (R86). -/
  | stuff
  /-- DESTUFF, 0x02 (R87). -/
  | destuff
  /-- CMD_REPLY, 0x10 (R88). -/
  | cmdReply
  /-- CMD_NOREPLY, 0x11 (R89). -/
  | cmdNoreply
  /-- TLM_REQ, 0x12 (R92). -/
  | tlmReq
  /-- DL_ENTER, 0x20 (R93). -/
  | dlEnter
  /-- DL_RECV, 0x21 (R95). -/
  | dlRecv
  /-- DL_EXIT, 0x22 (R94). -/
  | dlExit
  deriving DecidableEq, Repr

end Sys2Proof
end

