-- ==== Sys2Proof/Config.lean ====
section
/-! DEFINITION. What a build of the block fixes (R7), the steps that an environment can schedule (R10, R11), and the
free values: buffer contents after reset (R36) and the order of the agents' steps (R11). -/

namespace Sys2Proof

/-- The reserved escape byte, fixed (R7). -/
def ESC : Byte := 0x1F#8

/-- Index, counted from 0, of the application status byte in a command reply, fixed (R7; 90_conflicts.md C2). -/
def STATUS_IDX : Nat := 3

/-- Length of a telemetry request frame, fixed (R7). -/
def TLM_REQ_LEN : Nat := 5

/-- The build parameters of R7. A model takes every OPEN parameter as an argument: here a value of this structure,
carried by the state and changed by no step. -/
structure Config where
  /-- SOM, OPEN. -/
  som : Byte
  /-- EOM, OPEN. -/
  eom : Byte
  /-- DL_START, OPEN. -/
  dlStart : Byte
  /-- DL_END, OPEN. -/
  dlEnd : Byte
  /-- MIN_LEN, default 25 (D10). -/
  minLen : Nat := 25
  /-- MAX_LEN, OPEN (D11). -/
  maxLen : Nat
  /-- DL_DATA_LEN, OPEN (D15). -/
  dlDataLen : Nat
  /-- REPLY_LEN, default 6 (D22). -/
  replyLen : Nat := 6
  /-- TLM_HDR_LEN, default 3 (D19). -/
  tlmHdrLen : Nat := 3
  /-- Q_DEPTH, OPEN (D30). -/
  qDepth : Nat
  /-- N_PORTS, OPEN (D3). -/
  nPorts : Nat
  /-- CMD_CAP, OPEN (D23). -/
  cmdCap : Nat
  /-- OUT_CAP, OPEN (D23). -/
  outCap : Nat
  /-- TX_CAP, OPEN (D23). -/
  txCap : Nat
  /-- RXB_CAP, OPEN (D20). -/
  rxbCap : Nat
  /-- T_TOKEN, OPEN; read by no step (R12). -/
  tToken : Nat
  /-- T_TXDONE, OPEN; read by no step (R12). -/
  tTxDone : Nat
  /-- T_BYTE, OPEN; read by no step (R12). -/
  tByte : Nat
  deriving DecidableEq, Repr

/-- The test configuration TC of R9. TC gives no timeout bounds; they are 0 here and nothing reads them. -/
def Config.tc : Config :=
  { som := 0x7F#8, eom := 0xFF#8, dlStart := 0x7F#8, dlEnd := 0xFF#8, minLen := 25, maxLen := 64, dlDataLen := 24,
    replyLen := 6, tlmHdrLen := 3, qDepth := 64, nPorts := 2, cmdCap := 256, outCap := 256, txCap := 516, rxbCap := 256,
    tToken := 0, tTxDone := 0, tByte := 0 }

/-- Width of the host address space in bits: 12 + ceil(log2 N_PORTS) (R37). -/
def Config.addressWidth (c : Config) : Nat := 12 + Nat.clog 2 c.nPorts

/-- The widths of a host access (R40). -/
inductive Width where
  /-- 1 byte. -/
  | one
  /-- 2 bytes. -/
  | two
  /-- 4 bytes. -/
  | four
  deriving DecidableEq, Repr, Inhabited

/-- The number of bytes of an access. -/
def Width.bytes : Width → Nat
  | .one => 1
  | .two => 2
  | .four => 4

/-- One step of one agent (R10, R11; the step forms of R63). -/
inductive Event where
  /-- A host agent's MemRead(addr, n) (R64). -/
  | hostRead (addr : Nat) (n : Width)
  /-- A host agent's MemWrite(addr, n, v); only the low n bytes of v count (R40, R64). -/
  | hostWrite (addr : Nat) (n : Width) (v : Word)
  /-- One engine step of port p (R66). -/
  | engine (p : Nat)
  /-- The RX producer pushes a byte (R68). -/
  | rxPush (b : Byte)
  /-- The TX sink completes a frame (R73). -/
  | txComplete
  /-- The timeout source ends the wait of port p (R74). -/
  | timeout (p : Nat)
  /-- The reset input (R114). -/
  | reset
  deriving DecidableEq, Repr, Inhabited

/-- A byte of storage whose content after reset is unspecified (R36). -/
inductive Place where
  /-- A CMD_BUF or OUT_BUF byte, by host address. -/
  | host (addr : Nat)
  /-- RXB[p][i]. -/
  | rxb (p i : Nat)
  /-- FB[p][i]. -/
  | fb (p i : Nat)
  /-- W[p][i]. -/
  | window (p i : Nat)
  deriving DecidableEq, Repr, Inhabited

/-- FREE VALUE: the byte at a place that nothing has written since the reset numbered `epoch` (R36, U6 "any value").
It has no body: nothing can be proved of its value. -/
opaque Config.unspecified (epoch : Nat) (place : Place) : Byte

/-- FREE VALUE: the agent step that comes next when no step has been placed from outside, indexed by how many were
drawn before (R10, R11: any agent may be scheduled at any step; U10, U11). It has no body. -/
opaque Config.environment (tick : Nat) : Event

end Sys2Proof
end

