-- ==== Sys2Proof/WellFormed.lean ====
section
/-! DEFINITION. Which terms are well formed: the constraints of R8 on a configuration, one check each, and the
(empty) constraint on a command. -/

namespace Sys2Proof

/-- R8 (1): ESC, SOM and EOM are three distinct values. -/
def Config.frameMarkersDistinct (c : Config) : Bool := decide (ESC ≠ c.som ∧ ESC ≠ c.eom ∧ c.som ≠ c.eom)

/-- R8 (2): ESC is neither DL_START nor DL_END. -/
def Config.downloadMarkersNotEsc (c : Config) : Bool := decide (ESC ≠ c.dlStart ∧ ESC ≠ c.dlEnd)

/-- R8 (3). -/
def Config.minLenBound (c : Config) : Bool := decide (4 ≤ c.minLen)

/-- R8 (4). -/
def Config.maxLenAboveMin (c : Config) : Bool := decide (c.minLen + 4 ≤ c.maxLen)

/-- R8 (5). -/
def Config.dataLenBounds (c : Config) : Bool := decide (1 ≤ c.dlDataLen ∧ c.dlDataLen ≤ c.outCap)

/-- R8 (6). -/
def Config.replyLenBounds (c : Config) : Bool :=
  decide (4 ≤ c.replyLen ∧ c.replyLen ≤ c.rxbCap ∧ c.replyLen ≤ c.outCap)

/-- R8 (7). -/
def Config.headerFits (c : Config) : Bool := decide (c.tlmHdrLen + 2 ≤ c.rxbCap)

/-- R8 (8). -/
def Config.txCapBound (c : Config) : Bool := decide (5 ≤ c.txCap)

/-- R8 (9). -/
def Config.cmdCapBounds (c : Config) : Bool := decide (1 ≤ c.cmdCap ∧ c.cmdCap ≤ 1024)

/-- R8 (10). -/
def Config.outCapBounds (c : Config) : Bool := decide (1 ≤ c.outCap ∧ c.outCap ≤ 2048)

/-- R8 (11). -/
def Config.qDepthBounds (c : Config) : Bool := decide (1 ≤ c.qDepth ∧ c.qDepth ≤ 65535)

/-- R8 (12). -/
def Config.portBounds (c : Config) : Bool := decide (1 ≤ c.nPorts ∧ c.nPorts ≤ 255)

/-- R8 (13). -/
def Config.lengthFieldBounds (c : Config) : Bool := decide (c.maxLen ≤ 65535 ∧ c.rxbCap ≤ 65535)

/-- A configuration is legal only if it meets every constraint of R8. -/
def Config.legal (c : Config) : Bool :=
  c.frameMarkersDistinct && c.downloadMarkersNotEsc && c.minLenBound && c.maxLenAboveMin && c.dataLenBounds &&
  c.replyLenBounds && c.headerFits && c.txCapBound && c.cmdCapBounds && c.outCapBounds && c.qDepthBounds &&
  c.portBounds && c.lengthFieldBounds

/-- A command is one opcode with no operand field (R52), so every term is well formed; whether its operands in ARG and
CMD_BUF are accepted is decided when it is issued (R65). -/
def Instr.wellFormed : Instr → Bool
  | .stuff => true
  | .destuff => true
  | .cmdReply => true
  | .cmdNoreply => true
  | .tlmReq => true
  | .dlEnter => true
  | .dlRecv => true
  | .dlExit => true

end Sys2Proof
end

