-- ==== Sys2Proof/Decode.lean ====
section
/-! DEFINITION. The decoder of command words (R52, R54, R55), total and rejecting by name, then the encoder. -/

namespace Sys2Proof

/-- Why a command word is no command. -/
inductive DecodeError where
  /-- Fewer bytes than the four of a command word. -/
  | truncated
  /-- Bits [31:8] are not 0 (R52). -/
  | reservedBits
  /-- The opcode is no row of R54 (R55). -/
  | reservedOpcode
  deriving DecidableEq, Repr

/-- The OPCODE field, bits [7:0] (R52). -/
def opcodeField (w : Word) : Byte := w.extractLsb' 0 8

/-- The RSVD field, bits [31:8] (R52). -/
def reservedField (w : Word) : BitVec 24 := w.extractLsb' 8 24

/-- The opcode map of R54, row by row. -/
def opcodeMap : List (Byte × Instr) :=
  [(0x01#8, .stuff), (0x02#8, .destuff), (0x10#8, .cmdReply), (0x11#8, .cmdNoreply), (0x12#8, .tlmReq),
   (0x20#8, .dlEnter), (0x21#8, .dlRecv), (0x22#8, .dlExit)]

/-- The command that an opcode selects, if it is a row of R54. -/
def decodeOpcode (op : Byte) : Option Instr := (opcodeMap.find? (fun row => row.1 == op)).map (fun row => row.2)

/-- Sorts a command word as R52 says: RSVD first, then the opcode map. -/
def decodeWord (w : Word) : Except DecodeError Instr :=
  if reservedField w = 0 then
    match decodeOpcode (opcodeField w) with
    | some i => .ok i
    | none => .error .reservedOpcode
  else .error .reservedBits

/-- Four bytes as a word, the first the least significant (R39 (a)). -/
def wordOfBytes (b0 b1 b2 b3 : Byte) : Word := b3 ++ b2 ++ b1 ++ b0

/-- Byte lane k of a value: bits [8k+7:8k] (R39 (a)). -/
def byteLane (v : Word) (k : Nat) : Byte := v.extractLsb' (8 * k) 8

/-- The bytes of a word, least significant first (R39 (a)). -/
def bytesOfWord (w : Word) : List Byte := [byteLane w 0, byteLane w 1, byteLane w 2, byteLane w 3]

/-- Decodes the command word at the front of a byte list, and gives the rest. -/
def decode : List Byte → Except DecodeError (Instr × List Byte)
  | b0 :: b1 :: b2 :: b3 :: rest =>
    match decodeWord (wordOfBytes b0 b1 b2 b3) with
    | .ok i => .ok (i, rest)
    | .error e => .error e
  | _ => .error .truncated

/-- The opcode of a command (R54). -/
def opcodeOf : Instr → Byte
  | .stuff => 0x01#8
  | .destuff => 0x02#8
  | .cmdReply => 0x10#8
  | .cmdNoreply => 0x11#8
  | .tlmReq => 0x12#8
  | .dlEnter => 0x20#8
  | .dlRecv => 0x21#8
  | .dlExit => 0x22#8

/-- The command word of a command: RSVD = 0 over its opcode (R52). -/
def encode (i : Instr) : Word := (0#24 ++ opcodeOf i : BitVec 32)

/-- The word that the low `nbits` bits of w make, the bits above them 0. -/
def tableWord (nbits w : Nat) : Word := BitVec.ofNat 32 (w % 2 ^ nbits)

/-- The command that the decoder reads from the word w of `nbits` bits, laid out as four bytes, lowest address first. -/
def decodeTableWord (nbits w : Nat) : Option Instr :=
  match decode (bytesOfWord (tableWord nbits w)) with
  | .ok (i, _) => some i
  | .error _ => none

end Sys2Proof
end

