-- ==== Sys2Proof/Machine/State.lean ====
section
/-! DEFINITION. The state of the block (10_state.md), its reset value (R36), and the reasons a step can stop. -/

namespace Sys2Proof.Machine

/-- Stored bytes, as (address, byte) pairs. An address that is not listed holds no written byte: it reads as a free
value (`Config.unspecified`, R36). -/
abbrev Memory := List Host.Cell

/-- The canonical form: addresses strictly rising. (An unlisted address has no value, so no entry equals it.) -/
abbrev Memory.wf (m : Memory) : Prop := m.Pairwise (fun x y => x.1 < y.1)

/-- PHASE[p] (R20). -/
inductive Phase where
  | idle
  | tokenWait
  | build
  | txWait
  | rxReply
  | rxTlm
  | dlSeekStart
  | dlAccum
  | dlSeekEnd
  | exec
  deriving DecidableEq, Repr

/-- The result codes (R56). -/
inductive ResultCode where
  | ok
  | busBusy
  | allocationFailed
  | transportFailed
  | incorrectLength
  | badCommand
  deriving DecidableEq, Repr

/-- The RESULT register by fields (R26). -/
structure Result where
  /-- CODE. -/
  code : ResultCode
  /-- APP_STATUS. -/
  app : Byte
  /-- LENGTH. -/
  length : BitVec 16
  deriving DecidableEq, Repr

/-- RESULT at reset: every field 0 (R36). -/
def Result.reset : Result := { code := .ok, app := 0x00#8, length := 0#16 }

/-- The registers of one port: those the host sees (R23 to R27) and the hidden engine state (R20, R21). STATUS.BUSY and
STATUS.RSM are computed from the phase (R25). -/
structure Port where
  /-- PHASE[p] (R20). -/
  phase : Phase
  /-- OP[p] (R21). -/
  op : Byte
  /-- ARG[p] (R24). -/
  arg : Word
  /-- STATUS[p].DONE (R25). -/
  done : Bool
  /-- STATUS[p].WR_IGN (R25). -/
  wrIgn : Bool
  /-- RESULT[p] (R26). -/
  result : Result
  /-- SEQ[p], bits [15:0] (R27). -/
  seq : BitVec 16
  /-- RXB[p] (R21), by index. -/
  rxb : Memory
  /-- r[p] (R21). -/
  r : Nat
  /-- TIDX[p] (R21). -/
  tidx : Bool
  /-- FB[p] (R21), by index. -/
  fb : Memory
  /-- n[p] (R21). -/
  n : Nat
  /-- W[p] (R21), by index; index 2 is the newest byte. -/
  w : Memory
  /-- WCNT[p] (R21). -/
  wcnt : Nat
  deriving DecidableEq, Repr

/-- A port after reset (R36, R114): RXB, FB and W hold no written byte. -/
def Port.reset : Port :=
  { phase := .idle, op := 0x00#8, arg := 0#32, done := false, wrIgn := false, result := Result.reset, seq := 0#16,
    rxb := [], r := 0, tidx := false, fb := [], n := 0, w := [], wcnt := 0 }

/-- G.TOKEN (R18). -/
structure Token where
  /-- G.TOKEN.held. -/
  held : Bool
  /-- G.TOKEN.owner: the owning port while held, 0 while free. -/
  owner : Nat
  deriving DecidableEq, Repr

/-- The free token (R36). -/
def Token.free : Token := { held := false, owner := 0 }

/-- Which kind of step of an operation exec is asked for. -/
inductive Act where
  /-- Its issue: the step of the CMD write (R65). -/
  | issue
  /-- An engine step (R66). -/
  | engine
  /-- The timeout of its current wait (R74). -/
  | timeout
  deriving DecidableEq, Repr

/-- Whose step exec performs, and of which kind. The MODEL's own. -/
structure Sel where
  /-- The port. -/
  port : Nat
  /-- The kind of step. -/
  act : Act
  deriving DecidableEq, Repr

/-- What the last host access was answered. The MODEL's own: the outside view of R41 and R64. -/
inductive Response where
  /-- No access yet. -/
  | none
  /-- The data of a legal read. -/
  | data (v : Word)
  /-- A legal write was taken (or ignored, as its register's rule says). -/
  | written
  /-- BUS_ERROR (R41). -/
  | busError
  deriving DecidableEq, Repr

/-- The state (R17). `cfg` holds the build parameters, which no step changes. -/
structure State where
  /-- The build parameters (R7). -/
  cfg : Config
  /-- The registers of the ports 0 to N_PORTS - 1. -/
  ports : List Port
  /-- CMD_BUF and OUT_BUF of every port, by host address (R31, R32, R38). -/
  mem : Memory
  /-- G.TOKEN (R18). -/
  token : Token
  /-- Q, oldest byte first (R18). -/
  q : List Byte
  /-- G.TXDONE (R18). -/
  txDone : Bool
  /-- G.RXOVF (R18). -/
  rxOvf : Bool
  /-- G.DL_MODE (R18). -/
  dlMode : Bool
  /-- G.DL_TYPE (R18). -/
  dlType : Byte
  /-- TXLOG, oldest frame first (R35). -/
  txLog : List (List Byte)
  /-- TXPEND (R35). -/
  txPend : Nat
  /-- The MODEL's own: the agent steps placed from outside that come next (R10, R11). -/
  sched : List Event
  /-- The MODEL's own: how many agent steps were drawn from `Config.environment`. -/
  tick : Nat
  /-- The MODEL's own: how many resets there were, the index of the unspecified contents. -/
  epoch : Nat
  /-- The MODEL's own: the step that exec performs. -/
  sel : Sel
  /-- The MODEL's own: what the last host access was answered. -/
  resp : Response
  deriving DecidableEq, Repr

/-- No step of this machine faults: an error ends an operation with a result code and never stops the block (R101). So
the type has no constructor. -/
inductive Fault where
  deriving DecidableEq, Repr

/-- Why the model has no next state. -/
inductive Refusal where
  /-- exec raises it for a command that has no meaning yet. Safe. No arm does. -/
  | notModelled (mnemonic : String)
  /-- step raises it when the configuration breaks a constraint of R8 ("A model refuses a configuration that breaks any
  of them"). Safe. -/
  | illegalConfiguration
  /-- The TX sink's step raises it when TXPEND = 0 (R73, U9 "refuse"). Unsafe in the sense of R76: a chip whose sink
  signals spuriously has runs that the model lacks. -/
  | completionWithoutFrame
  deriving DecidableEq, Repr

/-- The block right after its first reset, for a given configuration (R36). TXLOG and TXPEND, which a reset leaves
alone, are empty and 0; nothing is scheduled. -/
def State.resetWith (c : Config) : State :=
  { cfg := c, ports := List.replicate c.nPorts Port.reset, mem := [], token := Token.free, q := [], txDone := false,
    rxOvf := false, dlMode := false, dlType := 0x00#8, txLog := [], txPend := 0, sched := [], tick := 0, epoch := 0,
    sel := { port := 0, act := .issue }, resp := .none }

/-- The machine right after reset, built with the test configuration TC of R9. -/
def State.reset : State := State.resetWith Config.tc

end Sys2Proof.Machine
end

