-- ==== Sys2Proof/Machine/Ops.lean ====
section
/-! DEFINITION. The named operations that every step is made of: stored bytes, ports, the queue (R68 to R70), the token
(R71), the transmitter (R72, R73), acceptance and completion of an operation (R65, R67), and raising an error with its
cleanup (R103, R104). -/

namespace Sys2Proof.Machine

/-! ## Stored bytes -/

/-- The byte written at an address, none where nothing has been written since reset. -/
def Memory.read : Memory → Nat → Option Byte
  | [], _ => none
  | (k, b) :: m, a => if k = a then some b else Memory.read m a

/-- Writes one byte, keeping the addresses strictly rising. -/
def Memory.write : Memory → Nat → Byte → Memory
  | [], a, b => [(a, b)]
  | (k, x) :: m, a, b =>
    if a < k then (a, b) :: (k, x) :: m
    else if a = k then (a, b) :: m
    else (k, x) :: Memory.write m a b

/-- Writes consecutive bytes, the first at address a. -/
def Memory.writeBytes (m : Memory) (a : Nat) : List Byte → Memory
  | [] => m
  | b :: bs => Memory.writeBytes (m.write a b) (a + 1) bs

/-- Host address of byte i of the CMD_BUF window of port p (R37, R38). -/
def cmdBufAddr (p i : Nat) : Nat := p * 0x1000 + 0x400 + i

/-- Host address of byte i of the OUT_BUF window of port p (R37, R38). -/
def outBufAddr (p i : Nat) : Nat := p * 0x1000 + 0x800 + i

/-- The CMD_BUF or OUT_BUF byte at a host address: the byte written there, else a free value (R36, U6, U16). -/
def State.byteAt (s : State) (a : Nat) : Byte := (s.mem.read a).getD (Config.unspecified s.epoch (.host a))

/-- CMD_BUF[p][i]. -/
def State.cmdBuf (s : State) (p i : Nat) : Byte := s.byteAt (cmdBufAddr p i)

/-- OUT_BUF[p][i]. -/
def State.outBuf (s : State) (p i : Nat) : Byte := s.byteAt (outBufAddr p i)

/-- OUT_BUF[p][0..len(bs)) <- bs; bytes at len(bs) and above keep their content (R32). -/
def State.writeOut (s : State) (p : Nat) (bs : List Byte) : State :=
  { s with mem := s.mem.writeBytes (outBufAddr p 0) bs }

/-! ## Ports -/

/-- The registers of port p. -/
def State.port (s : State) (p : Nat) : Port := s.ports.getD p Port.reset

/-- Replaces the registers of port p. -/
def State.setPort (s : State) (p : Nat) (x : Port) : State := { s with ports := s.ports.set p x }

/-- Changes the registers of port p. -/
def State.updPort (s : State) (p : Nat) (f : Port → Port) : State := s.setPort p (f (s.port p))

/-- STATUS[p].BUSY: 1 exactly when PHASE[p] ≠ IDLE (R25). -/
def State.busy (s : State) (p : Nat) : Bool := decide ((s.port p).phase ≠ .idle)

/-- phase[p] <- P. -/
def State.toPhase (s : State) (p : Nat) (ph : Phase) : State := s.updPort p (fun x => { x with phase := ph })

/-- RXB[p][i], a free value where nothing was written since reset. -/
def State.rxbByte (s : State) (p i : Nat) : Byte :=
  ((s.port p).rxb.read i).getD (Config.unspecified s.epoch (.rxb p i))

/-- FB[p][i], a free value where nothing was written since reset. -/
def State.fbByte (s : State) (p i : Nat) : Byte :=
  ((s.port p).fb.read i).getD (Config.unspecified s.epoch (.fb p i))

/-- W[p][i], a free value where nothing was written since reset. -/
def State.windowByte (s : State) (p i : Nat) : Byte :=
  ((s.port p).w.read i).getD (Config.unspecified s.epoch (.window p i))

/-- The bytes f i, ..., f (j-1): the slice [i..j), empty when j ≤ i (R13). -/
def slice (f : Nat → Byte) (i j : Nat) : List Byte := (List.range (j - i)).map (fun k => f (i + k))

/-- RXB[p][r[p]] <- b ; r[p] <- r[p] + 1 (R88, R92). -/
def storeReplyByte (p : Nat) (b : Byte) (s : State) : State :=
  s.updPort p (fun x => { x with rxb := x.rxb.write x.r b, r := x.r + 1 })

/-- FB[p][n[p]] <- b ; n[p] <- n[p] + 1 (R97, R98). -/
def storeFrameByte (p : Nat) (b : Byte) (s : State) : State :=
  s.updPort p (fun x => { x with fb := x.fb.write x.n b, n := x.n + 1 })

/-- W[p][0] <- W[p][1] ; W[p][1] <- W[p][2] ; W[p][2] <- b ; WCNT[p] <- min(WCNT[p] + 1, 3) (R96). -/
def shiftWindow (p : Nat) (b : Byte) (s : State) : State :=
  s.updPort p (fun x =>
    { x with w := ((x.w.write 0 (s.windowByte p 1)).write 1 (s.windowByte p 2)).write 2 b, wcnt := min (x.wcnt + 1) 3 })

/-! ## The byte ingress queue -/

/-- Q.push(b): the RX producer's step (R68). -/
def push (b : Byte) (s : State) : State :=
  if s.q.length < s.cfg.qDepth then { s with q := s.q ++ [b] } else { s with rxOvf := true }

/-- Q.drain() (R70). -/
def drain (s : State) : State := { s with q := [] }

/-! ## The bus ownership token -/

/-- acquire(p) (R71). -/
def acquire (p : Nat) (s : State) : State := { s with token := { held := true, owner := p } }

/-- G.TOKEN.held = 1 and G.TOKEN.owner = p. -/
def State.owns (s : State) (p : Nat) : Bool := s.token.held && decide (s.token.owner = p)

/-- release(p): only the port that holds the token releases it (R71, R105). -/
def release (p : Nat) (s : State) : State := if s.owns p then { s with token := Token.free } else s

/-- G.DL_MODE = 1 and G.TOKEN.held = 1 and G.TOKEN.owner = p: the session of port p is open (R65). -/
def State.ownsSession (s : State) (p : Nat) : Bool := s.dlMode && s.owns p

/-! ## The transmitter -/

/-- handoff(f): TXLOG <- TXLOG ++ [f] ; TXPEND <- TXPEND + 1 (R72). -/
def handoff (f : List Byte) (s : State) : State := { s with txLog := s.txLog ++ [f], txPend := s.txPend + 1 }

/-- txcomplete(), enabled when TXPEND > 0 (R73). -/
def txCompletion (s : State) : State := { s with txPend := s.txPend - 1, txDone := true }

/-! ## Acceptance and completion of an operation -/

/-- An accepted command: DONE <- 0 ; OP[p] <- op ; phase[p] <- the operation's first phase (R65). -/
def accept (p : Nat) (i : Instr) (first : Phase) (s : State) : State :=
  s.updPort p (fun x => { x with done := false, op := opcodeOf i, phase := first })

/-- complete(p, code, app, len) (R67). -/
def complete (p : Nat) (code : ResultCode) (app : Byte) (len : Nat) (s : State) : State :=
  s.updPort p (fun x =>
    { x with result := { code := code, app := app, length := BitVec.ofNat 16 len }, phase := .idle, done := true })

/-- What a terminal path does to the shared state (a row of R104). -/
structure Cleanup where
  /-- Q.drain(). -/
  drains : Bool
  /-- release(p). -/
  releases : Bool
  /-- The new G.DL_MODE, none where it is unchanged. -/
  dlMode : Option Bool
  deriving DecidableEq, Repr

/-- A row that does nothing. -/
def Cleanup.nothing : Cleanup := { drains := false, releases := false, dlMode := none }

/-- A row that drains Q and releases the token. -/
def Cleanup.drainAndRelease : Cleanup := { drains := true, releases := true, dlMode := none }

/-- The table of R104: each terminal path of each operation. -/
def cleanupOf : Instr → ResultCode → Cleanup
  | _, .badCommand => Cleanup.nothing
  | .stuff, _ => Cleanup.nothing
  | .destuff, _ => Cleanup.nothing
  | .cmdReply, .busBusy => Cleanup.nothing
  | .cmdReply, _ => Cleanup.drainAndRelease
  | .tlmReq, .busBusy => Cleanup.nothing
  | .tlmReq, _ => Cleanup.drainAndRelease
  | .cmdNoreply, _ => Cleanup.nothing
  | .dlEnter, .ok => { drains := false, releases := false, dlMode := some true }
  | .dlEnter, _ => Cleanup.nothing
  | .dlRecv, _ => Cleanup.nothing
  | .dlExit, .ok => { drains := true, releases := true, dlMode := some false }
  | .dlExit, _ => Cleanup.nothing

/-- Performs a row of R104: drain first, then release (90_conflicts.md C1). -/
def cleanup (c : Cleanup) (p : Nat) (s : State) : State :=
  let drained := if c.drains then drain s else s
  let released := if c.releases then release p drained else drained
  match c.dlMode with
  | some m => { released with dlMode := m }
  | none => released

/-- A terminal step of operation i on port p: the cleanup of R104, then complete (R67). -/
def terminate (i : Instr) (p : Nat) (code : ResultCode) (app : Byte) (len : Nat) (s : State) : State :=
  complete p code app len (cleanup (cleanupOf i code) p s)

/-- `raise Fail(code)` in a step of operation i on port p: the one way an error is taken (R103). RESULT records the code
with APP_STATUS = 0 and LENGTH = 0, DONE becomes 1 and the port is IDLE; OUT_BUF and SEQ are not written. There is no
return step: the host reads RESULT and issues its next command (R107). -/
def raiseFail (i : Instr) (p : Nat) (code : ResultCode) (s : State) : State := terminate i p code 0x00#8 0 s

/-! ## Waits (R74) -/

/-- The condition of a wait phase; none for the phases that are no waits. -/
def State.waitCondition (s : State) (p : Nat) : Phase → Option Bool
  | .tokenWait => some (!s.token.held)
  | .txWait => some s.txDone
  | .rxReply => some (!s.q.isEmpty)
  | .dlSeekStart => some (!s.q.isEmpty)
  | .dlAccum => some (!s.q.isEmpty)
  | .rxTlm => some (!s.q.isEmpty || decide ((s.port p).r = s.cfg.rxbCap))
  | .dlSeekEnd => some (!s.q.isEmpty || decide ((s.port p).n = s.cfg.maxLen))
  | .idle => none
  | .build => none
  | .exec => none

/-- The code of a timeout in a phase (last column of R74): BUS_BUSY for the token, TRANSPORT_FAILED for the others. -/
def timeoutCode : Phase → ResultCode
  | .tokenWait => .busBusy
  | _ => .transportFailed

/-- The timeout step of operation i on port p: enabled only while the condition of the wait is false (R74). Where it is
not enabled nothing happens. -/
def timeoutStep (i : Instr) (p : Nat) (s : State) : State :=
  if s.waitCondition p (s.port p).phase = some false then raiseFail i p (timeoutCode (s.port p).phase) s else s

/-- The engine's side of TOKEN_WAIT: acquires the token when it is free, then k; no step while it is held (R66, R74). -/
def awaitToken (p : Nat) (k : State → State) (s : State) : State :=
  if s.token.held then s else k (acquire p s)

/-- The engine's side of TX_WAIT: consumes G.TXDONE, then k; no step while it is 0 (R66, R74). -/
def awaitTxDone (k : State → State) (s : State) : State :=
  if s.txDone then k { s with txDone := false } else s

/-- The engine's side of a byte wait: b <- Q.pop(), then k b; no step while Q is empty (R66, R69, R74). -/
def awaitByte (k : Byte → State → State) (s : State) : State :=
  match s.q with
  | [] => s
  | b :: rest => k b { s with q := rest }

/-! ## Reset -/

/-- reset() (R114): every port, the token, Q and the flags take the values of R36; CMD_BUF, OUT_BUF, RXB, FB and W become
unspecified anew (the next epoch); TXLOG and TXPEND stay. -/
def resetBlock (s : State) : State :=
  { s with ports := List.replicate s.cfg.nPorts Port.reset, mem := [], token := Token.free, q := [], txDone := false,
           rxOvf := false, dlMode := false, dlType := 0x00#8, epoch := s.epoch + 1 }

end Sys2Proof.Machine
end

