-- ==== Sys2Proof/Machine/Flags.lean ====
section
/-! DEFINITION. The register words the host reads: STATUS (R25), RESULT (R26), SEQ (R27), GSTATUS (R28), DLTYPE (R29),
and the flags in them (R33). -/

namespace Sys2Proof.Machine

/-- The PHASE codes of R20. -/
def Phase.code : Phase → BitVec 4
  | .idle => 0#4
  | .tokenWait => 1#4
  | .build => 2#4
  | .txWait => 3#4
  | .rxReply => 4#4
  | .rxTlm => 5#4
  | .dlSeekStart => 6#4
  | .dlAccum => 7#4
  | .dlSeekEnd => 8#4
  | .exec => 9#4

/-- STATUS.RSM of a phase (R25). -/
def Phase.rsm : Phase → BitVec 2
  | .dlSeekStart => 1#2
  | .dlAccum => 2#2
  | .dlSeekEnd => 3#2
  | _ => 0#2

/-- The CODE byte of a result code (R56). -/
def ResultCode.byte : ResultCode → Byte
  | .ok => 0x00#8
  | .busBusy => 0x01#8
  | .allocationFailed => 0x02#8
  | .transportFailed => 0x03#8
  | .incorrectLength => 0x04#8
  | .badCommand => 0x05#8

/-- STATUS (R25): [0] BUSY, [1] DONE, [2] WR_IGN, [5:4] RSM. -/
def State.statusWord (s : State) (p : Nat) : Word :=
  (0#26 ++ (s.port p).phase.rsm ++ 0#1 ++ BitVec.ofBool (s.port p).wrIgn ++ BitVec.ofBool (s.port p).done ++
    BitVec.ofBool (s.busy p) : BitVec 32)

/-- RESULT (R26): [7:0] CODE, [15:8] APP_STATUS, [31:16] LENGTH. -/
def State.resultWord (s : State) (p : Nat) : Word :=
  ((s.port p).result.length ++ (s.port p).result.app ++ (s.port p).result.code.byte : BitVec 32)

/-- SEQ (R27): [15:0] SEQ, [31:16] 0. -/
def State.seqWord (s : State) (p : Nat) : Word := (0#16 ++ (s.port p).seq : BitVec 32)

/-- GSTATUS (R28): [0] TOKEN_HELD, [1] DL_MODE, [2] TXDONE, [3] RXOVF, [15:8] TOKEN_OWNER (0 while free),
[31:16] QCOUNT. -/
def State.gstatusWord (s : State) : Word :=
  (BitVec.ofNat 16 s.q.length ++ BitVec.ofNat 8 (if s.token.held then s.token.owner else 0) ++ 0#4 ++
    BitVec.ofBool s.rxOvf ++ BitVec.ofBool s.txDone ++ BitVec.ofBool s.dlMode ++ BitVec.ofBool s.token.held : BitVec 32)

/-- DLTYPE (R29): [7:0] G.DL_TYPE, [31:8] 0. -/
def State.dltypeWord (s : State) : Word := (0#24 ++ s.dlType : BitVec 32)

end Sys2Proof.Machine
end

