-- ==== Sys2Proof/Machine/Bus.lean ====
section
/-! DEFINITION. Host accesses (R37 to R43, R64): which are legal, what a read returns, what a write does. A write to CMD
of a port that is not BUSY issues a command; it is in Agents.lean. -/

namespace Sys2Proof.Machine

/-- An access that gets a bus error (R41). -/
def illegalAccess (c : Config) (a : Nat) (n : Width) : Bool :=
  decide (c.nPorts * 0x1000 ≤ a) ||
  (if a % 0x1000 < 0x400 then decide (n ≠ .four ∨ a % 4 ≠ 0) else decide (a % n.bytes ≠ 0))

/-- The register at an aligned local offset of the register window (R38); CMD and the reserved offsets read 0 (R23,
R30). -/
def State.readRegister (s : State) (p o : Nat) : Word :=
  if o = 0x004 then (s.port p).arg
  else if o = 0x008 then s.statusWord p
  else if o = 0x00C then s.resultWord p
  else if o = 0x010 then s.seqWord p
  else if o = 0x014 then s.gstatusWord
  else if o = 0x018 then s.dltypeWord
  else 0#32

/-- The byte at a local offset of the buffer windows: CMD_BUF or OUT_BUF below its capacity, 0 above (R31, R32). -/
def State.readWindowByte (s : State) (p o : Nat) : Byte :=
  if o < 0x800 then (if o - 0x400 < s.cfg.cmdCap then s.cmdBuf p (o - 0x400) else 0x00#8)
  else (if o - 0x800 < s.cfg.outCap then s.outBuf p (o - 0x800) else 0x00#8)

/-- Up to four bytes as a value, the byte at the lowest address least significant (R39 (a)), zero-extended. -/
def windowValue (f : Nat → Byte) : Width → Word
  | .one => wordOfBytes (f 0) 0x00#8 0x00#8 0x00#8
  | .two => wordOfBytes (f 0) (f 1) 0x00#8 0x00#8
  | .four => wordOfBytes (f 0) (f 1) (f 2) (f 3)

/-- The data of a legal read (R40, R64). -/
def State.readData (s : State) (a : Nat) (n : Width) : Word :=
  if a % 0x1000 < 0x400 then s.readRegister (a / 0x1000) (a % 0x1000)
  else windowValue (fun k => s.readWindowByte (a / 0x1000) (a % 0x1000 + k)) n

/-- MemRead(addr, n): no read has a side effect (R43); the answer is recorded. -/
def hostRead (a : Nat) (n : Width) (s : State) : State :=
  if illegalAccess s.cfg a n then { s with resp := .busError } else { s with resp := .data (s.readData a n) }

/-- A write that is ignored because BUSY = 1 sets WR_IGN (R23, R24, R31). -/
def ignoreWrite (p : Nat) (s : State) : State := s.updPort p (fun x => { x with wrIgn := true })

/-- A write to ARG while BUSY = 0: ARG[23:0] <- v[23:0], ARG[31:24] stays 0 (R24, R64). -/
def writeArg (p : Nat) (v : Word) (s : State) : State :=
  s.updPort p (fun x => { x with arg := (0#8 ++ v.extractLsb' 0 24 : BitVec 32) })

/-- A write to STATUS: W1C of DONE and WR_IGN, at any time (R25). -/
def writeStatus (p : Nat) (v : Word) (s : State) : State :=
  s.updPort p (fun x =>
    { x with done := if v.getLsbD 1 then false else x.done, wrIgn := if v.getLsbD 2 then false else x.wrIgn })

/-- A write to GSTATUS: W1C of RXOVF, from any port (R28). -/
def writeGstatus (v : Word) (s : State) : State := { s with rxOvf := if v.getLsbD 3 then false else s.rxOvf }

/-- A write of n bytes to the CMD_BUF window from index i while BUSY = 0: each lane below CMD_CAP is stored (R31, R40). -/
def writeCmdBuf (p i : Nat) (n : Width) (v : Word) (s : State) : State :=
  { s with mem := s.mem.writeBytes (cmdBufAddr p i) (((List.range n.bytes).map (byteLane v)).take (s.cfg.cmdCap - i)) }

/-- A legal write at local offset o of port p, other than one to CMD (R64). RESULT, SEQ, DLTYPE, the reserved registers
and OUT_BUF ignore it without setting WR_IGN (R26, R27, R29, R30, R32). -/
def writeWindow (p o : Nat) (n : Width) (v : Word) (s : State) : State :=
  if o = 0x004 then (if s.busy p then ignoreWrite p s else writeArg p v s)
  else if o = 0x008 then writeStatus p v s
  else if o = 0x014 then writeGstatus v s
  else if 0x400 ≤ o ∧ o < 0x800 then (if s.busy p then ignoreWrite p s else writeCmdBuf p (o - 0x400) n v s)
  else s

end Sys2Proof.Machine
end

