-- ==== Sys2Proof/Machine/Operands.lean ====
section
/-! DEFINITION. The operands of a command, assembled from ARG[p] and CMD_BUF[p] (R53), and the issue checks on them
(R65). -/

namespace Sys2Proof.Machine

/-- LEN = zext(ARG[p][15:0]). -/
def State.lenOperand (s : State) (p : Nat) : Nat := ((s.port p).arg.extractLsb' 0 16).toNat

/-- ID = ARG[p][23:16]. -/
def State.idOperand (s : State) (p : Nat) : Byte := (s.port p).arg.extractLsb' 16 8

/-- CMD_BUF[p][0..LEN), the byte operand of STUFF, DESTUFF, CMD_REPLY and CMD_NOREPLY. -/
def State.bytesOperand (s : State) (p : Nat) : List Byte := slice (s.cmdBuf p) 0 (s.lenOperand p)

/-- The issue of a command that is always accepted (TLM_REQ, DL_ENTER; R65). -/
def issueAlways (i : Instr) (first : Phase) (p : Nat) (s : State) : State := accept p i first s

/-- The issue of a command that reads CMD_BUF: BAD_COMMAND if LEN > CMD_CAP (R65). -/
def issueBuffered (i : Instr) (first : Phase) (p : Nat) (s : State) : State :=
  if s.cfg.cmdCap < s.lenOperand p then raiseFail i p .badCommand s else accept p i first s

/-- The issue of a command of an open session: BAD_COMMAND unless the session is port p's own (R65). -/
def issueInSession (i : Instr) (first : Phase) (p : Nat) (s : State) : State :=
  if s.ownsSession p then accept p i first s else raiseFail i p .badCommand s

end Sys2Proof.Machine
end

