-- ==== Sys2Proof/Machine/Stuffing.lean ====
section
/-! DEFINITION. The codec functions (R80, R81), the frames the block builds (R57, R58) and the terminator scan (R90). -/

namespace Sys2Proof.Machine

/-- stuff (R80): each byte is copied, ESC twice. -/
def stuff : List Byte → List Byte
  | [] => []
  | b :: t => if b = ESC then b :: ESC :: stuff t else b :: stuff t

/-- destuff (R81): each byte is copied; after an ESC the following byte, if any, is skipped unread. -/
def destuff : List Byte → List Byte
  | [] => []
  | [b] => [b]
  | b :: c :: t => if b = ESC then b :: destuff t else b :: destuff (c :: t)

/-- frame_cmd(thin) = [ESC, SOM] ++ stuff(thin) ++ [ESC, EOM] (R57). -/
def frameCmd (c : Config) (thin : List Byte) : List Byte := [ESC, c.som] ++ stuff thin ++ [ESC, c.eom]

/-- frame_tlm(id) = [ESC, SOM, id, ESC, EOM], the identifier never stuffed (R58). -/
def frameTlm (c : Config) (id : Byte) : List Byte := [ESC, c.som, id, ESC, c.eom]

/-- The start marker of the session type t (R61). -/
def startMarker (c : Config) (t : Byte) : List Byte := [ESC, c.dlStart, t]

/-- scan_byte (R90) on TIDX and a byte: whether the terminator is FOUND, and the new TIDX. FOUND leaves TIDX at 1; a
mismatch sets it to 0 and the byte is not tested again. -/
def scanByte (eom : Byte) (tidx : Bool) (b : Byte) : Bool × Bool :=
  if tidx then (if b = eom then (true, true) else (false, false))
  else (false, decide (b = ESC))

/-- The sequence counter t[0] | (t[1] << 8) of a destuffed packet (R99, R78). A packet has at least two thin bytes
(R99); for shorter lists, which no run reaches, a missing byte counts as 0. -/
def seqOf (t : List Byte) : BitVec 16 :=
  (t.getD 0 0x00#8).setWidth 16 ||| ((t.getD 1 0x00#8).setWidth 16 <<< 8)

end Sys2Proof.Machine
end

