-- ==== Sys2Proof/Machine/Codec.lean ====
section
/-! DEFINITION. The Frame Codec commands STUFF and DESTUFF (41_codec.md). Each meaning is every step of its command: its
issue, its engine steps and its timeouts, on the port and of the kind that State.sel selects. -/

namespace Sys2Proof.Machine

/-- The EXEC step of a codec command with output `out`: ALLOCATION_FAILED if it does not fit OUT_BUF, else OUT_BUF and
completion with LENGTH = len(out) (R86, R87). -/
def codecExec (i : Instr) (out : List Byte) (p : Nat) (s : State) : State :=
  if s.cfg.outCap < out.length then raiseFail i p .allocationFailed s
  else terminate i p .ok 0x00#8 out.length (s.writeOut p out)

/-- The engine's steps of STUFF on port p (R86). -/
def stuffEngine (p : Nat) (s : State) : State :=
  match (s.port p).phase with
  | .exec => codecExec .stuff (stuff (s.bytesOperand p)) p s
  | _ => s

/-- STUFF (R86). -/
def execStuff (s : State) : Host.Outcome State Fault Refusal :=
  match s.sel.act with
  | .issue => .next (issueBuffered .stuff .exec s.sel.port s)
  | .engine => .next (stuffEngine s.sel.port s)
  | .timeout => .next (timeoutStep .stuff s.sel.port s)

/-- The engine's steps of DESTUFF on port p (R87). -/
def destuffEngine (p : Nat) (s : State) : State :=
  match (s.port p).phase with
  | .exec => codecExec .destuff (destuff (s.bytesOperand p)) p s
  | _ => s

/-- DESTUFF (R87). -/
def execDestuff (s : State) : Host.Outcome State Fault Refusal :=
  match s.sel.act with
  | .issue => .next (issueBuffered .destuff .exec s.sel.port s)
  | .engine => .next (destuffEngine s.sel.port s)
  | .timeout => .next (timeoutStep .destuff s.sel.port s)

end Sys2Proof.Machine
end

