-- ==== Sys2Proof/Machine/Download.lean ====
section
/-! DEFINITION. The File-Download Reassembler commands DL_ENTER, DL_RECV and DL_EXIT (43_download.md). Each meaning is
every step of its command, as State.sel selects. -/

namespace Sys2Proof.Machine

/-! ## DL_ENTER -/

/-- With the token acquired: G.DL_MODE <- 1 (by the row of R104) ; G.DL_TYPE <- ID ; completion; Q is not drained (R93). -/
def openSession (p : Nat) (s : State) : State :=
  terminate .dlEnter p .ok 0x00#8 0 { s with dlType := s.idOperand p }

/-- The engine's steps of DL_ENTER on port p (R93). -/
def dlEnterEngine (p : Nat) (s : State) : State :=
  match (s.port p).phase with
  | .tokenWait => awaitToken p (openSession p) s
  | _ => s

/-- DL_ENTER (R93). -/
def execDlEnter (s : State) : Host.Outcome State Fault Refusal :=
  match s.sel.act with
  | .issue => .next (issueAlways .dlEnter .tokenWait s.sel.port s)
  | .engine => .next (dlEnterEngine s.sel.port s)
  | .timeout => .next (timeoutStep .dlEnter s.sel.port s)

/-! ## DL_RECV -/

/-- The issue of DL_RECV: each packet starts fresh, WCNT[p] <- 0 and n[p] <- 0 (R65, R95). -/
def issueDlRecv (p : Nat) (s : State) : State :=
  if s.ownsSession p then (accept p .dlRecv .dlSeekStart s).updPort p (fun x => { x with wcnt := 0, n := 0 })
  else raiseFail .dlRecv p .badCommand s

/-- The three most recent bytes are the session's start marker (R96). -/
def State.markerSeen (s : State) (p : Nat) : Bool :=
  decide ((s.port p).wcnt = 3 ∧
    [s.windowByte p 0, s.windowByte p 1, s.windowByte p 2] = startMarker s.cfg s.dlType)

/-- FB[p][0..3) <- the start marker ; n[p] <- 3 ; phase[p] <- DL_ACCUM (R96). -/
def beginFrame (p : Nat) (s : State) : State :=
  s.updPort p (fun x => { x with fb := x.fb.writeBytes 0 (startMarker s.cfg s.dlType), n := 3, phase := .dlAccum })

/-- DL_SEEK_START with a popped byte (R96). -/
def seekStartByte (p : Nat) (b : Byte) (s : State) : State :=
  let t := shiftWindow p b s
  if t.markerSeen p then beginFrame p t else t

/-- DL_ACCUM with a popped byte: no test; DL_SEEK_END once MIN_LEN bytes follow the marker (R97). -/
def accumByte (p : Nat) (b : Byte) (s : State) : State :=
  let t := storeFrameByte p b s
  if (t.port p).n = 3 + t.cfg.minLen then t.toPhase p .dlSeekEnd else t

/-- The end marker is found: destuffs the body, sets SEQ and OUT_BUF, completes; the session stays open (R99). -/
def finishPacket (p : Nat) (s : State) : State :=
  let thin := destuff (slice (s.fbByte p) 3 ((s.port p).n - 2))
  let out := (thin.drop 2).take s.cfg.dlDataLen
  terminate .dlRecv p .ok 0x00#8 out.length
    ((s.writeOut p out).updPort p (fun x => { x with seq := seqOf thin }))

/-- DL_SEEK_END with a popped byte: the last two stored bytes are tested (R98). -/
def seekEndByte (p : Nat) (b : Byte) (s : State) : State :=
  let t := storeFrameByte p b s
  if t.fbByte p ((t.port p).n - 2) = ESC ∧ t.fbByte p ((t.port p).n - 1) = t.cfg.dlEnd then finishPacket p t else t

/-- DL_SEEK_END: the bound is checked before the pop (R98, R106). -/
def seekEndStep (p : Nat) (s : State) : State :=
  if (s.port p).n = s.cfg.maxLen then raiseFail .dlRecv p .incorrectLength s else awaitByte (seekEndByte p) s

/-- The engine's steps of DL_RECV on port p (R95). -/
def dlRecvEngine (p : Nat) (s : State) : State :=
  match (s.port p).phase with
  | .dlSeekStart => awaitByte (seekStartByte p) s
  | .dlAccum => awaitByte (accumByte p) s
  | .dlSeekEnd => seekEndStep p s
  | _ => s

/-- DL_RECV (R95 to R99). -/
def execDlRecv (s : State) : Host.Outcome State Fault Refusal :=
  match s.sel.act with
  | .issue => .next (issueDlRecv s.sel.port s)
  | .engine => .next (dlRecvEngine s.sel.port s)
  | .timeout => .next (timeoutStep .dlRecv s.sel.port s)

/-! ## DL_EXIT -/

/-- The engine's steps of DL_EXIT on port p: drain, G.DL_MODE <- 0, release, completion (R94, the row of R104). -/
def dlExitEngine (p : Nat) (s : State) : State :=
  match (s.port p).phase with
  | .exec => terminate .dlExit p .ok 0x00#8 0 s
  | _ => s

/-- DL_EXIT (R94). -/
def execDlExit (s : State) : Host.Outcome State Fault Refusal :=
  match s.sel.act with
  | .issue => .next (issueInSession .dlExit .exec s.sel.port s)
  | .engine => .next (dlExitEngine s.sel.port s)
  | .timeout => .next (timeoutStep .dlExit s.sel.port s)

end Sys2Proof.Machine
end

