-- ==== Sys2Proof/Machine/Transport.lean ====
section
/-! DEFINITION. The Transport Engine commands CMD_REPLY, CMD_NOREPLY and TLM_REQ (42_transport.md). Each meaning is every
step of its command, as State.sel selects. -/

namespace Sys2Proof.Machine

/-- BUILD of a command frame: ALLOCATION_FAILED if the frame is longer than TX_CAP, else the handoff (R88, R89). -/
def buildCommand (i : Instr) (p : Nat) (s : State) : State :=
  let f := frameCmd s.cfg (s.bytesOperand p)
  if s.cfg.txCap < f.length then raiseFail i p .allocationFailed s else (handoff f s).toPhase p .txWait

/-! ## CMD_REPLY -/

/-- After TX_WAIT of CMD_REPLY: r[p] <- 0 ; phase[p] <- RX_REPLY (R88). -/
def enterRxReply (p : Nat) (s : State) : State := s.updPort p (fun x => { x with r := 0, phase := .rxReply })

/-- RX_REPLY with a popped byte: stores it; the REPLY_LEN-th completes with the raw reply in OUT_BUF and the byte at
STATUS_IDX in APP_STATUS (R88). -/
def rxReplyByte (p : Nat) (b : Byte) (s : State) : State :=
  let t := storeReplyByte p b s
  if (t.port p).r = t.cfg.replyLen then
    terminate .cmdReply p .ok (t.rxbByte p STATUS_IDX) t.cfg.replyLen (t.writeOut p (slice (t.rxbByte p) 0 t.cfg.replyLen))
  else t

/-- The engine's steps of CMD_REPLY on port p (R88). -/
def cmdReplyEngine (p : Nat) (s : State) : State :=
  match (s.port p).phase with
  | .tokenWait => awaitToken p (fun t => t.toPhase p .build) s
  | .build => buildCommand .cmdReply p s
  | .txWait => awaitTxDone (enterRxReply p) s
  | .rxReply => awaitByte (rxReplyByte p) s
  | _ => s

/-- CMD_REPLY (R88). -/
def execCmdReply (s : State) : Host.Outcome State Fault Refusal :=
  match s.sel.act with
  | .issue => .next (issueBuffered .cmdReply .tokenWait s.sel.port s)
  | .engine => .next (cmdReplyEngine s.sel.port s)
  | .timeout => .next (timeoutStep .cmdReply s.sel.port s)

/-! ## CMD_NOREPLY -/

/-- The engine's steps of CMD_NOREPLY on port p: no token, no reply (R89). -/
def cmdNoreplyEngine (p : Nat) (s : State) : State :=
  match (s.port p).phase with
  | .build => buildCommand .cmdNoreply p s
  | .txWait => awaitTxDone (terminate .cmdNoreply p .ok 0x00#8 0) s
  | _ => s

/-- CMD_NOREPLY (R89). -/
def execCmdNoreply (s : State) : Host.Outcome State Fault Refusal :=
  match s.sel.act with
  | .issue => .next (issueBuffered .cmdNoreply .build s.sel.port s)
  | .engine => .next (cmdNoreplyEngine s.sel.port s)
  | .timeout => .next (timeoutStep .cmdNoreply s.sel.port s)

/-! ## TLM_REQ -/

/-- BUILD of TLM_REQ: ALLOCATION_FAILED if expected_length > OUT_CAP, else the handoff of the 5-byte request (R92). -/
def buildTelemetry (p : Nat) (s : State) : State :=
  if s.cfg.outCap < s.lenOperand p then raiseFail .tlmReq p .allocationFailed s
  else (handoff (frameTlm s.cfg (s.idOperand p)) s).toPhase p .txWait

/-- After TX_WAIT of TLM_REQ: r[p] <- 0 ; TIDX[p] <- 0 ; phase[p] <- RX_TLM (R92). -/
def enterRxTlm (p : Nat) (s : State) : State :=
  s.updPort p (fun x => { x with r := 0, tidx := false, phase := .rxTlm })

/-- The terminator is FOUND at RXB[p][r[p]-1]: the body between the header and the terminator is destuffed, cut to
expected_length and put into OUT_BUF; the operation completes (R92). -/
def finishTelemetry (p : Nat) (s : State) : State :=
  let body := slice (s.rxbByte p) s.cfg.tlmHdrLen ((s.port p).r - 2)
  let out := (destuff body).take (s.lenOperand p)
  terminate .tlmReq p .ok 0x00#8 out.length (s.writeOut p out)

/-- RX_TLM with a popped byte: stores and scans it (R90, R92). -/
def rxTlmByte (p : Nat) (b : Byte) (s : State) : State :=
  let scan := scanByte s.cfg.eom (s.port p).tidx b
  let t := (storeReplyByte p b s).updPort p (fun x => { x with tidx := scan.2 })
  if scan.1 then finishTelemetry p t else t

/-- RX_TLM: INCORRECT_LENGTH when RXB is full, checked before the byte wait (R92, R106). -/
def rxTlmStep (p : Nat) (s : State) : State :=
  if (s.port p).r = s.cfg.rxbCap then raiseFail .tlmReq p .incorrectLength s else awaitByte (rxTlmByte p) s

/-- The engine's steps of TLM_REQ on port p (R92). -/
def tlmReqEngine (p : Nat) (s : State) : State :=
  match (s.port p).phase with
  | .tokenWait => awaitToken p (fun t => t.toPhase p .build) s
  | .build => buildTelemetry p s
  | .txWait => awaitTxDone (enterRxTlm p) s
  | .rxTlm => rxTlmStep p s
  | _ => s

/-- TLM_REQ (R92). -/
def execTlmReq (s : State) : Host.Outcome State Fault Refusal :=
  match s.sel.act with
  | .issue => .next (issueAlways .tlmReq .tokenWait s.sel.port s)
  | .engine => .next (tlmReqEngine s.sel.port s)
  | .timeout => .next (timeoutStep .tlmReq s.sel.port s)

end Sys2Proof.Machine
end

