-- ==== Sys2Proof/Machine/Dispatch.lean ====
section
/-! DEFINITION. exec: the step of a command that State.sel selects. -/

namespace Sys2Proof.Machine

-- One step of command i: its issue, an engine step or a timeout, on the port that s.sel names.
def exec (i : Instr) (s : State) : Host.Outcome State Fault Refusal :=
  match i with
  | .stuff => Sys2Proof.Machine.execStuff s
  | .destuff => Sys2Proof.Machine.execDestuff s
  | .cmdReply => Sys2Proof.Machine.execCmdReply s
  | .cmdNoreply => Sys2Proof.Machine.execCmdNoreply s
  | .tlmReq => Sys2Proof.Machine.execTlmReq s
  | .dlEnter => Sys2Proof.Machine.execDlEnter s
  | .dlRecv => Sys2Proof.Machine.execDlRecv s
  | .dlExit => Sys2Proof.Machine.execDlExit s

end Sys2Proof.Machine
end

