-- ==== Sys2Proof/Machine/Agents.lean ====
section
/-! DEFINITION. The steps of the agents (R11): which one comes next, and what it does. -/

namespace Sys2Proof.Machine

/-- Selects the port and the kind of step for exec. -/
def State.select (s : State) (p : Nat) (a : Act) : State := { s with sel := { port := p, act := a } }

/-- issue(p, w): the CMD write to port p while BUSY = 0 (R65). A reserved word completes at once with BAD_COMMAND (R55);
a command word runs the issue step of its command. -/
def issue (p : Nat) (w : Word) (s : State) : Host.Outcome State Fault Refusal :=
  match decodeWord w with
  | .ok i => exec i (s.select p .issue)
  | .error _ => .next (complete p .badCommand 0x00#8 0 s)

/-- MemWrite(addr, n, v) (R64). -/
def hostWrite (a : Nat) (n : Width) (v : Word) (s : State) : Host.Outcome State Fault Refusal :=
  if illegalAccess s.cfg a n then .next { s with resp := .busError }
  else if a % 0x1000 = 0 then
    (if s.busy (a / 0x1000) then .next (ignoreWrite (a / 0x1000) { s with resp := .written })
     else issue (a / 0x1000) v { s with resp := .written })
  else .next (writeWindow (a / 0x1000) (a % 0x1000) n v { s with resp := .written })

/-- A step, engine or timeout, of the operation in progress on port p. An idle port has neither (R66, R74): nothing
happens. -/
def operationStep (a : Act) (p : Nat) (s : State) : Host.Outcome State Fault Refusal :=
  if s.busy p then
    match decodeOpcode (s.port p).op with
    | some i => exec i (s.select p a)
    | none => .next s
  else .next s

/-- The step of the agent that an event names (R10, R11). -/
def perform (e : Event) (s : State) : Host.Outcome State Fault Refusal :=
  match e with
  | .hostRead a n => .next (hostRead a n s)
  | .hostWrite a n v => hostWrite a n v s
  | .engine p => operationStep .engine p s
  | .rxPush b => .next (push b s)
  | .txComplete => if s.txPend = 0 then .refused .completionWithoutFrame else .next (txCompletion s)
  | .timeout p => operationStep .timeout p s
  | .reset => .next (resetBlock s)

/-- An agent step on a legal configuration; one that breaks a constraint of R8 is refused. -/
def performLegal (e : Event) (s : State) : Host.Outcome State Fault Refusal :=
  if s.cfg.legal then perform e s else .refused .illegalConfiguration

/-- The step of the agent that comes next: the first one placed from outside, else one drawn from the free schedule. -/
def nextStep (s : State) : Host.Outcome State Fault Refusal :=
  match s.sched with
  | e :: rest => performLegal e { s with sched := rest }
  | [] => performLegal (Config.environment s.tick) { s with tick := s.tick + 1 }

/-- Places a CMD write of word w to port 0 as the next agent step, port 0 idle so that the write issues it. -/
def placeCommand (w : Word) (s : State) : State :=
  { s.toPhase 0 .idle with sched := .hostWrite 0 .four w :: s.sched }

end Sys2Proof.Machine
end

