-- ==== Sys2Proof/Machine/Step.lean ====
section
/-! DEFINITION. One step of the machine, and where a command word is placed for it. -/

namespace Sys2Proof.Machine

/-- One atomic step of one agent (R10). -/
def step (s : State) : Host.Outcome State Fault Refusal := nextStep s

/-- s with the command word w of `nbits` bits as the next CMD write (to port 0, which is idle). -/
def State.withFetchWord (s : State) (nbits w : Nat) : State := placeCommand (tableWord nbits w) s

end Sys2Proof.Machine
end

