-- ==== Sys2Proof/Safety.lean ====
section
/-! DEFINITION. What counts as a sound state and a fair run, and the words the statements use: which phases an operation
passes, which hold the token, the runs of a schedule, and the unchanged part of a state. -/

namespace Sys2Proof

/-- Every command (R54). -/
def Instr.all : List Instr := [.stuff, .destuff, .cmdReply, .cmdNoreply, .tlmReq, .dlEnter, .dlRecv, .dlExit]

end Sys2Proof

namespace Sys2Proof.Machine

/-! ## Operations and phases -/

/-- The phases that an operation passes, IDLE apart (R20). -/
def phasesOf : Instr → List Phase
  | .stuff => [.exec]
  | .destuff => [.exec]
  | .cmdReply => [.tokenWait, .build, .txWait, .rxReply]
  | .cmdNoreply => [.build, .txWait]
  | .tlmReq => [.tokenWait, .build, .txWait, .rxTlm]
  | .dlEnter => [.tokenWait]
  | .dlRecv => [.dlSeekStart, .dlAccum, .dlSeekEnd]
  | .dlExit => [.exec]

/-- The phases in which an operation holds the token: those after the acquire of CMD_REPLY and TLM_REQ, and all of
DL_RECV and DL_EXIT, which run inside the port's own session (R65, R88, R92, R104). -/
def holdsTokenIn : Instr → Phase → Bool
  | .cmdReply, ph => decide (ph ≠ .tokenWait)
  | .tlmReq, ph => decide (ph ≠ .tokenWait)
  | .dlRecv, _ => true
  | .dlExit, _ => true
  | _, _ => false

/-- The commands of an open session (R65). -/
def inSession : Instr → Bool
  | .dlRecv => true
  | .dlExit => true
  | _ => false

/-- The commands that read CMD_BUF (R65). -/
def readsCmdBuf : Instr → Bool
  | .stuff => true
  | .destuff => true
  | .cmdReply => true
  | .cmdNoreply => true
  | _ => false

/-- The wait phases (R74). -/
def isWait : Phase → Bool
  | .tokenWait => true
  | .txWait => true
  | .rxReply => true
  | .rxTlm => true
  | .dlSeekStart => true
  | .dlAccum => true
  | .dlSeekEnd => true
  | _ => false

/-! ## The invariant -/

/-- The operation i in progress on port p: its phase is one of its own (R20); while it holds the token, the token is
p's and a session is open exactly for the session commands (R19, R69, R105); its operands passed the checks made so far
(R65, R92). -/
def OperationSound (s : State) (p : Nat) (i : Instr) : Prop :=
  (s.port p).phase ∈ phasesOf i ∧
  (holdsTokenIn i (s.port p).phase = true → s.token = { held := true, owner := p } ∧ s.dlMode = inSession i) ∧
  (readsCmdBuf i = true → s.lenOperand p ≤ s.cfg.cmdCap) ∧
  (i = .tlmReq → (s.port p).phase = .txWait ∨ (s.port p).phase = .rxTlm → s.lenOperand p ≤ s.cfg.outCap)
  deriving Decidable

/-- The counters of port p are within their bounds (R21, R78, R97). -/
def CountersSound (s : State) (p : Nat) : Prop :=
  (s.port p).r ≤ s.cfg.rxbCap ∧ (s.port p).n ≤ s.cfg.maxLen ∧ (s.port p).wcnt ≤ 3 ∧
  ((s.port p).phase = .rxReply → (s.port p).r < s.cfg.replyLen) ∧
  ((s.port p).phase = .dlAccum → 3 ≤ (s.port p).n ∧ (s.port p).n < 3 + s.cfg.minLen) ∧
  ((s.port p).phase = .dlSeekEnd → 3 + s.cfg.minLen ≤ (s.port p).n)
  deriving Decidable

/-- RXB, FB and W of port p are in canonical form and inside their sizes (R21), and the bytes that the current receive
phase has counted are written: no step reads one that is not (R36, U6). -/
def WorkBuffersSound (s : State) (p : Nat) : Prop :=
  (s.port p).rxb.wf ∧ (s.port p).fb.wf ∧ (s.port p).w.wf ∧
  (∀ c ∈ (s.port p).rxb, c.1 < s.cfg.rxbCap) ∧ (∀ c ∈ (s.port p).fb, c.1 < s.cfg.maxLen) ∧
  (∀ c ∈ (s.port p).w, c.1 < 3) ∧
  ((s.port p).phase = .rxReply ∨ (s.port p).phase = .rxTlm →
    ∀ k ∈ List.range (s.port p).r, ((s.port p).rxb.read k).isSome = true) ∧
  ((s.port p).phase = .dlAccum ∨ (s.port p).phase = .dlSeekEnd →
    ∀ k ∈ List.range (s.port p).n, ((s.port p).fb.read k).isSome = true) ∧
  ((s.port p).phase = .dlSeekStart → ∀ k ∈ List.range 3, 3 ≤ k + (s.port p).wcnt → ((s.port p).w.read k).isSome = true)
  deriving Decidable

/-- The registers of port p that the host reads keep their fields' rules: ARG[31:24] = 0 (R24), LENGTH ≤ OUT_CAP, and an
error leaves APP_STATUS = 0 and LENGTH = 0 (R26, R102). -/
def ReportSound (s : State) (p : Nat) : Prop :=
  (s.port p).arg.extractLsb' 24 8 = 0#8 ∧ (s.port p).result.length.toNat ≤ s.cfg.outCap ∧
  ((s.port p).result.code ≠ .ok → (s.port p).result.app = 0x00#8 ∧ (s.port p).result.length = 0#16)
  deriving Decidable

/-- Everything about port p: it is IDLE or runs an operation. -/
def PortSound (s : State) (p : Nat) : Prop :=
  ((s.port p).phase = .idle ∨ ∃ i ∈ Instr.all, (s.port p).op = opcodeOf i ∧ OperationSound s p i) ∧
  CountersSound s p ∧ WorkBuffersSound s p ∧ ReportSound s p
  deriving Decidable

/-- A host address that is a byte of some port's CMD_BUF or OUT_BUF (R31, R32, R37, R38). -/
def isBufferAddress (c : Config) (a : Nat) : Prop :=
  a < c.nPorts * 0x1000 ∧
  ((0x400 ≤ a % 0x1000 ∧ a % 0x1000 < 0x400 + c.cmdCap) ∨ (0x800 ≤ a % 0x1000 ∧ a % 0x1000 < 0x800 + c.outCap))
  deriving Decidable

/-- The shared state: Q within Q_DEPTH, the token's owner 0 while free and a port while held (R18), a session only while
the token is held (R19), stored bytes in canonical form and only at buffer addresses, frames within TX_CAP (R88, R92). -/
def SharedSound (s : State) : Prop :=
  s.q.length ≤ s.cfg.qDepth ∧ (s.token.held = false → s.token.owner = 0) ∧
  (s.token.held = true → s.token.owner < s.cfg.nPorts) ∧ (s.dlMode = true → s.token.held = true) ∧
  s.mem.wf ∧ (∀ c ∈ s.mem, isBufferAddress s.cfg c.1) ∧ (∀ f ∈ s.txLog, f.length ≤ s.cfg.txCap)
  deriving Decidable

/-- The invariant of the block: a legal configuration (R8), one register set per port, and every port and the shared
state sound. -/
def Sound (s : State) : Prop :=
  s.cfg.legal = true ∧ s.ports.length = s.cfg.nPorts ∧ SharedSound s ∧ ∀ p ∈ List.range s.cfg.nPorts, PortSound s p
  deriving Decidable

/-! ## Runs -/

/-- The agent step that comes next. -/
def nextEvent (s : State) : Event :=
  match s.sched with
  | e :: _ => e
  | [] => Config.environment s.tick

/-- s with the next agent step taken off the schedule. -/
def afterDraw (s : State) : State :=
  match s.sched with
  | _ :: rest => { s with sched := rest }
  | [] => { s with tick := s.tick + 1 }

/-- k steps, by the host's definition. -/
abbrev run (k : Nat) (s : State) : Host.Outcome State Fault Refusal := Host.Core.run Sys2Proof.core k s

/-- s with the agent steps es placed before the ones already scheduled. -/
def State.placing (s : State) (es : List Event) : State := { s with sched := es ++ s.sched }

/-- k engine steps of port p. -/
def engineSteps (p k : Nat) : List Event := List.replicate k (.engine p)

/-- k rounds of an engine step of port p and then a timeout of port p. -/
def serviceRounds (p : Nat) : Nat → List Event
  | 0 => []
  | k + 1 => .engine p :: .timeout p :: serviceRounds p k

/-- An infinite run of the machine. -/
def IsRun (states : Nat → State) : Prop := ∀ k, step (states k) = .next (states (k + 1))

/-- The fairness of R74: no port stays in one wait phase for ever. The step does not impose it. -/
def FairRun (states : Nat → State) : Prop :=
  ∀ k p, isWait ((states k).port p).phase = true → ∃ j, k < j ∧ ((states j).port p).phase ≠ ((states k).port p).phase

/-! ## The unchanged part of a state -/

/-- Every register of every other port is unchanged. -/
def OtherPortsSame (p : Nat) (s t : State) : Prop := ∀ p', p' ≠ p → t.port p' = s.port p'

/-- Every byte of CMD_BUF and OUT_BUF is unchanged. -/
def BuffersSame (s t : State) : Prop := ∀ a, t.byteAt a = s.byteAt a

/-- Every byte of CMD_BUF and OUT_BUF outside the first k bytes of OUT_BUF[p] is unchanged. -/
def BuffersSameOutsideOut (p k : Nat) (s t : State) : Prop :=
  ∀ a, a < outBufAddr p 0 ∨ outBufAddr p 0 + k ≤ a → t.byteAt a = s.byteAt a

/-- OUT_BUF[p][0..len(bs)) = bs. -/
def OutHolds (p : Nat) (bs : List Byte) (t : State) : Prop := ∀ k (h : k < bs.length), t.outBuf p k = bs[k]

/-- The shared flags other than the token and Q are unchanged: TXDONE, RXOVF, DL_MODE, DL_TYPE. -/
def FlagsSame (s t : State) : Prop :=
  t.txDone = s.txDone ∧ t.rxOvf = s.rxOvf ∧ t.dlMode = s.dlMode ∧ t.dlType = s.dlType

/-- TXLOG and TXPEND are unchanged. -/
def WireSame (s t : State) : Prop := t.txLog = s.txLog ∧ t.txPend = s.txPend

/-- The configuration and the model's own fields but sel and resp are unchanged (so unwritten bytes read the same). -/
def SettingSame (s t : State) : Prop :=
  t.cfg = s.cfg ∧ t.sched = s.sched ∧ t.tick = s.tick ∧ t.epoch = s.epoch

/-- All the shared state is unchanged: the token, Q, the flags, the wire, and the setting. -/
def SharedSame (s t : State) : Prop :=
  t.token = s.token ∧ t.q = s.q ∧ FlagsSame s t ∧ WireSame s t ∧ SettingSame s t

/-- A terminal step's report on port p: RESULT, IDLE and DONE, every other register of p unchanged (R67). -/
def Reports (p : Nat) (c : ResultCode) (app : Byte) (len : Nat) (s t : State) : Prop :=
  t.port p = { s.port p with result := { code := c, app := app, length := BitVec.ofNat 16 len }, phase := .idle,
                             done := true }

/-- Port p waits and the condition of its wait is false, so only the timeout can end it (R74, by phase). -/
def WaitsInVain (s : State) (p : Nat) : Prop :=
  match (s.port p).phase with
  | .tokenWait => s.token.held = true
  | .txWait => s.txDone = false
  | .rxReply => s.q = []
  | .dlSeekStart => s.q = []
  | .dlAccum => s.q = []
  | .rxTlm => s.q = [] ∧ (s.port p).r < s.cfg.rxbCap
  | .dlSeekEnd => s.q = [] ∧ (s.port p).n < s.cfg.maxLen
  | .idle => False
  | .build => False
  | .exec => False

/-- The port whose registers an agent step is about; none for the shared inputs. -/
def portOf : Event → Option Nat
  | .hostRead a _ => some (a / 0x1000)
  | .hostWrite a _ _ => some (a / 0x1000)
  | .engine p => some p
  | .timeout p => some p
  | .rxPush _ => none
  | .txComplete => none
  | .reset => none

/-! ## The codec's contract -/

/-- Every maximal run of consecutive ESC bytes has even length (R85). -/
def WellStuffed (s : List Byte) : Prop :=
  ∀ (u : List Byte) (k : Nat) (v : List Byte), s = u ++ List.replicate k ESC ++ v →
    u.getLast? ≠ some ESC → v.head? ≠ some ESC → k % 2 = 0

/-- The number of bytes that the scan of destuff skips (R84). -/
def skipped : List Byte → Nat
  | [] => 0
  | [_] => 0
  | b :: c :: t => if b = ESC then skipped t + 1 else skipped (c :: t)

/-- TIDX after scanning the bytes of a list that holds no terminator for the scan; none if FOUND before its end (R90). -/
def scanThrough (eom : Byte) : Bool → List Byte → Option Bool
  | tidx, [] => some tidx
  | tidx, b :: t => if (scanByte eom tidx b).1 then none else scanThrough eom (scanByte eom tidx b).2 t

end Sys2Proof.Machine
end

