-- ==== Sys2Proof/Certificates/Slice0/Obligations.lean ====
section
/-! DEFINITION. The statements for the provers. `log <n>` is notes/assumptions/<n>.md. Each agent step is placed as the
head of the schedule (log 4); exec performs the step that State.sel selects (log 10). -/

open Sys2Proof Sys2Proof.Machine

/-! ## Decoding -/

/-- R52, R54: a word is a command exactly when RSVD = 0 and its opcode is a row of the map; every other word is none. -/
def Obligations.DecodeAcceptsExactlyTheOpcodeMap : Prop :=
  ∀ w : Word,
    (w.extractLsb' 8 24 ≠ 0#24 → ∃ e, decodeWord w = .error e) ∧
    (∀ i, decodeWord w = .ok i ↔ w.extractLsb' 8 24 = 0#24 ∧ w.extractLsb' 0 8 = opcodeOf i) ∧
    (∀ i, decodeWord w = .ok i ↔ w = encode i)

/-- R52, R39: the encoding of every command, laid out little-endian before any bytes, decodes to it and leaves them. -/
def Obligations.DecodeOfEncodedBytesGivesTheCommand : Prop :=
  ∀ (i : Instr) (rest : List Byte), i.wellFormed = true → decode (bytesOfWord (encode i) ++ rest) = .ok (i, rest)

/-- R54: the command words written out from the map decode to their commands. -/
def Obligations.WordsOfTheMapDecodeToTheirCommands : Prop :=
  decodeTableWord 32 0x00000001 = some .stuff ∧ decodeTableWord 32 0x00000002 = some .destuff ∧
  decodeTableWord 32 0x00000010 = some .cmdReply ∧ decodeTableWord 32 0x00000011 = some .cmdNoreply ∧
  decodeTableWord 32 0x00000012 = some .tlmReq ∧ decodeTableWord 32 0x00000020 = some .dlEnter ∧
  decodeTableWord 32 0x00000021 = some .dlRecv ∧ decodeTableWord 32 0x00000022 = some .dlExit ∧
  decodeTableWord 32 0x00000003 = none ∧ decodeTableWord 32 0x00000110 = none

/-! ## The step -/

/-- R64, R65: a CMD write of a command word to an idle port runs exec of that command, as its issue, on the state with
the write taken off the schedule and answered. -/
def Obligations.StepRunsTheIssuedCommand : Prop :=
  ∀ (s : State) (p : Nat) (w : Word) (i : Instr) (rest : List Event),
    s.cfg.legal = true → p < s.cfg.nPorts → s.busy p = false → s.sched = .hostWrite (p * 0x1000) .four w :: rest →
    decodeWord w = .ok i → i.wellFormed = true →
    step s = exec i { s with sched := rest, resp := .written, sel := { port := p, act := .issue } }

/-- R66, R74: an engine step or a timeout of a busy port runs exec of the command latched in OP, as that step. -/
def Obligations.StepRunsTheOperationInProgress : Prop :=
  ∀ (s : State) (p : Nat) (i : Instr) (rest : List Event),
    s.cfg.legal = true → s.busy p = true → (s.port p).op = opcodeOf i →
    (s.sched = .engine p :: rest →
      step s = exec i { s with sched := rest, sel := { port := p, act := .engine } }) ∧
    (s.sched = .timeout p :: rest →
      step s = exec i { s with sched := rest, sel := { port := p, act := .timeout } })

/-- R8: a configuration that breaks any of the thirteen constraints is refused; one that meets them all is not. -/
def Obligations.IllegalConfigurationsAreRefused : Prop :=
  ∀ s : State,
    let c := s.cfg
    let constraints :=
      (ESC ≠ c.som ∧ ESC ≠ c.eom ∧ c.som ≠ c.eom) ∧ (ESC ≠ c.dlStart ∧ ESC ≠ c.dlEnd) ∧ 4 ≤ c.minLen ∧
      c.minLen + 4 ≤ c.maxLen ∧ (1 ≤ c.dlDataLen ∧ c.dlDataLen ≤ c.outCap) ∧
      (4 ≤ c.replyLen ∧ c.replyLen ≤ c.rxbCap ∧ c.replyLen ≤ c.outCap) ∧ c.tlmHdrLen + 2 ≤ c.rxbCap ∧ 5 ≤ c.txCap ∧
      (1 ≤ c.cmdCap ∧ c.cmdCap ≤ 1024) ∧ (1 ≤ c.outCap ∧ c.outCap ≤ 2048) ∧ (1 ≤ c.qDepth ∧ c.qDepth ≤ 65535) ∧
      (1 ≤ c.nPorts ∧ c.nPorts ≤ 255) ∧ (c.maxLen ≤ 65535 ∧ c.rxbCap ≤ 65535)
    (¬ constraints → step s = .refused .illegalConfiguration) ∧
    (constraints → step s ≠ .refused .illegalConfiguration)

/-- R101: no error stops the block. On a legal configuration every step answers a next state, but for a TX completion
with no pending frame, which the model refuses (U9, log 6). -/
def Obligations.StepStopsOnlyOnASpuriousCompletion : Prop :=
  ∀ s : State, s.cfg.legal = true →
    (∃ t, step s = .next t) ∨
    (nextEvent s = .txComplete ∧ s.txPend = 0 ∧ step s = .refused .completionWithoutFrame)

/-! ## The codec functions -/

/-- R80, R82: stuff writes each byte once and ESC twice, in order; the length law and its bounds. The escape byte is 0x1F
(R7, the row ESC). -/
def Obligations.StuffingLengthLaw : Prop :=
  ESC = 0x1F#8 ∧ ∀ t : List Byte,
    stuff t = t.flatMap (fun b => if b = ESC then [b, ESC] else [b]) ∧
    (stuff t).length = t.length + t.count ESC ∧ t.length ≤ (stuff t).length ∧ (stuff t).length ≤ 2 * t.length

/-- R83: destuff undoes stuff, on every byte sequence. -/
def Obligations.DestuffUndoesStuff : Prop := ∀ t : List Byte, destuff (stuff t) = t

/-- R84: the length of a destuffed sequence: the input's less the bytes skipped, at least half of it rounded up. -/
def Obligations.DestuffingLengthLaw : Prop :=
  ∀ s : List Byte,
    (s.length + 1) / 2 ≤ (destuff s).length ∧ (destuff s).length ≤ s.length ∧
    (destuff s).length = s.length - skipped s

/-- R85: the outputs of stuff are exactly the well stuffed sequences, which stuff and destuff carry back; on any other
the round trip fails, and an odd run of ESC costs the byte after it, or nothing at the end. -/
def Obligations.StuffedSequencesAreTheWellStuffedOnes : Prop :=
  (∀ s : List Byte, (∃ t, s = stuff t) ↔ WellStuffed s) ∧
  (∀ s : List Byte, WellStuffed s → stuff (destuff s) = s) ∧
  (∀ s : List Byte, ¬ WellStuffed s → stuff (destuff s) ≠ s) ∧
  (∀ (u v : List Byte) (b : Byte) (k : Nat), WellStuffed u → u.getLast? ≠ some ESC → b ≠ ESC →
    destuff (u ++ List.replicate (2 * k + 1) ESC ++ b :: v) =
      destuff u ++ List.replicate (k + 1) ESC ++ destuff v) ∧
  (∀ (u : List Byte) (k : Nat), WellStuffed u → u.getLast? ≠ some ESC →
    destuff (u ++ List.replicate (2 * k + 1) ESC) = destuff u ++ List.replicate (k + 1) ESC)

/-! ## Issue -/

/-- R53: the operands a command reads. -/
def Obligations.OperandsComeFromArgAndCmdBuf : Prop :=
  ∀ (s : State) (p : Nat),
    s.lenOperand p = ((s.port p).arg.extractLsb' 0 16).toNat ∧ s.idOperand p = (s.port p).arg.extractLsb' 16 8 ∧
    (s.bytesOperand p).length = s.lenOperand p ∧
    ∀ k (h : k < (s.bytesOperand p).length), (s.bytesOperand p)[k] = s.cmdBuf p k

/-- R65, R55: a CMD write to an idle port accepts the command, or completes at once with BAD_COMMAND; nothing else of
the block changes. -/
def Obligations.CmdWriteIssuesTheCommand : Prop :=
  ∀ (s : State) (p : Nat) (w : Word) (rest : List Event),
    s.cfg.legal = true → s.ports.length = s.cfg.nPorts → p < s.cfg.nPorts → s.busy p = false →
    s.sched = .hostWrite (p * 0x1000) .four w :: rest →
    let op := w.extractLsb' 0 8
    let len := ((s.port p).arg.extractLsb' 0 16).toNat
    let bad := w.extractLsb' 8 24 ≠ 0#24 ∨
      op ∉ [0x01#8, 0x02#8, 0x10#8, 0x11#8, 0x12#8, 0x20#8, 0x21#8, 0x22#8] ∨
      (op ∈ [0x01#8, 0x02#8, 0x10#8, 0x11#8] ∧ s.cfg.cmdCap < len) ∨
      (op ∈ [0x21#8, 0x22#8] ∧ ¬ (s.dlMode = true ∧ s.token.held = true ∧ s.token.owner = p))
    ∃ t, step s = .next t ∧
      (bad → Reports p .badCommand 0x00#8 0 s t) ∧
      (¬ bad → t.port p =
        { s.port p with
          done := false, op := op,
          phase := if op ∈ [0x01#8, 0x02#8, 0x22#8] then .exec
            else if op ∈ [0x10#8, 0x12#8, 0x20#8] then .tokenWait
            else if op = 0x11#8 then .build else .dlSeekStart,
          wcnt := if op = 0x21#8 then 0 else (s.port p).wcnt,
          n := if op = 0x21#8 then 0 else (s.port p).n }) ∧
      OtherPortsSame p s t ∧ BuffersSame s t ∧ t.token = s.token ∧ t.q = s.q ∧ FlagsSame s t ∧ WireSame s t ∧
      t.cfg = s.cfg ∧ t.sched = rest

/-! ## STUFF and DESTUFF -/

/-- R86, EXEC: STUFF writes the stuffed operand to OUT_BUF and reports its length, or ALLOCATION_FAILED with OUT_BUF
unchanged; no shared state is written. -/
def Obligations.StuffExecWritesTheStuffedOperand : Prop :=
  ∀ (s : State) (p : Nat), p < s.ports.length → s.sel = { port := p, act := .engine } → (s.port p).phase = .exec →
    let out := stuff (s.bytesOperand p)
    (out.length ≤ s.cfg.outCap → ∃ t, exec .stuff s = .next t ∧
      Reports p .ok 0x00#8 (s.lenOperand p + (s.bytesOperand p).count ESC) s t ∧ OutHolds p out t ∧
      BuffersSameOutsideOut p out.length s t ∧ OtherPortsSame p s t ∧ SharedSame s t) ∧
    (s.cfg.outCap < out.length → ∃ t, exec .stuff s = .next t ∧ Reports p .allocationFailed 0x00#8 0 s t ∧
      BuffersSame s t ∧ OtherPortsSame p s t ∧ SharedSame s t)

/-- R87, EXEC: DESTUFF writes the destuffed operand to OUT_BUF and reports its length, or ALLOCATION_FAILED, which needs
CMD_CAP > OUT_CAP; no shared state is written. -/
def Obligations.DestuffExecWritesTheDestuffedOperand : Prop :=
  ∀ (s : State) (p : Nat), p < s.ports.length → s.sel = { port := p, act := .engine } → (s.port p).phase = .exec →
    s.lenOperand p ≤ s.cfg.cmdCap →
    let out := destuff (s.bytesOperand p)
    (out.length ≤ s.cfg.outCap → ∃ t, exec .destuff s = .next t ∧ Reports p .ok 0x00#8 out.length s t ∧
      OutHolds p out t ∧ BuffersSameOutsideOut p out.length s t ∧ OtherPortsSame p s t ∧ SharedSame s t) ∧
    (s.cfg.outCap < out.length → s.cfg.outCap < s.cfg.cmdCap ∧
      ∃ t, exec .destuff s = .next t ∧ Reports p .allocationFailed 0x00#8 0 s t ∧
      BuffersSame s t ∧ OtherPortsSame p s t ∧ SharedSame s t)

/-! ## CMD_REPLY, CMD_NOREPLY and TLM_REQ -/

/-- R88, R92, R71, TOKEN_WAIT: CMD_REPLY and TLM_REQ take a free token and go to BUILD; while it is held they have no
step (nothing happens, log 5). -/
def Obligations.TokenWaitTakesAFreeToken : Prop :=
  ∀ (s : State) (p : Nat) (i : Instr), i = .cmdReply ∨ i = .tlmReq → p < s.ports.length →
    s.sel = { port := p, act := .engine } → (s.port p).phase = .tokenWait →
    (s.token.held = false → ∃ t, exec i s = .next t ∧ t.token = { held := true, owner := p } ∧
      t.port p = { s.port p with phase := .build } ∧ OtherPortsSame p s t ∧ BuffersSame s t ∧ t.q = s.q ∧
      FlagsSame s t ∧ WireSame s t ∧ SettingSame s t) ∧
    (s.token.held = true → exec i s = .next s)

/-- R88, R89, R57, R72, BUILD: CMD_REPLY and CMD_NOREPLY hand off [ESC, SOM] ++ stuff(thin) ++ [ESC, EOM] as one frame,
or fail with ALLOCATION_FAILED when it is longer than TX_CAP; only CMD_REPLY then drains and releases (R104). -/
def Obligations.BuildHandsOffTheCommandFrame : Prop :=
  ∀ (s : State) (p : Nat) (i : Instr), i = .cmdReply ∨ i = .cmdNoreply → p < s.ports.length →
    s.sel = { port := p, act := .engine } → (s.port p).phase = .build →
    let frame := [ESC, s.cfg.som] ++ stuff (s.bytesOperand p) ++ [ESC, s.cfg.eom]
    (frame.length ≤ s.cfg.txCap → ∃ t, exec i s = .next t ∧ t.txLog = s.txLog ++ [frame] ∧ t.txPend = s.txPend + 1 ∧
      t.port p = { s.port p with phase := .txWait } ∧ OtherPortsSame p s t ∧ BuffersSame s t ∧ t.token = s.token ∧
      t.q = s.q ∧ FlagsSame s t ∧ SettingSame s t) ∧
    (s.cfg.txCap < frame.length → (i = .cmdReply → s.token = { held := true, owner := p }) →
      ∃ t, exec i s = .next t ∧ Reports p .allocationFailed 0x00#8 0 s t ∧
      t.q = (if i = .cmdReply then [] else s.q) ∧
      t.token = (if i = .cmdReply then { held := false, owner := 0 } else s.token) ∧
      OtherPortsSame p s t ∧ BuffersSame s t ∧ FlagsSame s t ∧ WireSame s t ∧ SettingSame s t)

/-- R92, R58, BUILD: TLM_REQ hands off the 5-byte request with its identifier unstuffed, or fails with
ALLOCATION_FAILED when expected_length > OUT_CAP, draining and releasing. -/
def Obligations.BuildHandsOffTheTelemetryRequest : Prop :=
  ∀ (s : State) (p : Nat), p < s.ports.length → s.sel = { port := p, act := .engine } → (s.port p).phase = .build →
    (s.lenOperand p ≤ s.cfg.outCap → ∃ t, exec .tlmReq s = .next t ∧
      t.txLog = s.txLog ++ [[ESC, s.cfg.som, s.idOperand p, ESC, s.cfg.eom]] ∧ t.txPend = s.txPend + 1 ∧
      t.port p = { s.port p with phase := .txWait } ∧ OtherPortsSame p s t ∧ BuffersSame s t ∧ t.token = s.token ∧
      t.q = s.q ∧ FlagsSame s t ∧ SettingSame s t) ∧
    (s.cfg.outCap < s.lenOperand p → s.token = { held := true, owner := p } → ∃ t, exec .tlmReq s = .next t ∧
      Reports p .allocationFailed 0x00#8 0 s t ∧ t.q = [] ∧ t.token = { held := false, owner := 0 } ∧
      OtherPortsSame p s t ∧ BuffersSame s t ∧ FlagsSame s t ∧ WireSame s t ∧ SettingSame s t)

/-- R88, R89, R92, TX_WAIT: G.TXDONE = 1 is consumed; CMD_REPLY and TLM_REQ go to their receive phase with their counters
at 0, CMD_NOREPLY completes with OK. While G.TXDONE = 0 they have no step (nothing happens, log 5). -/
def Obligations.TxWaitConsumesTheSignal : Prop :=
  ∀ (s : State) (p : Nat) (i : Instr), i = .cmdReply ∨ i = .cmdNoreply ∨ i = .tlmReq → p < s.ports.length →
    s.sel = { port := p, act := .engine } → (s.port p).phase = .txWait →
    (s.txDone = true → ∃ t, exec i s = .next t ∧ t.txDone = false ∧
      (i = .cmdReply → t.port p = { s.port p with r := 0, phase := .rxReply }) ∧
      (i = .tlmReq → t.port p = { s.port p with r := 0, tidx := false, phase := .rxTlm }) ∧
      (i = .cmdNoreply → Reports p .ok 0x00#8 0 s t) ∧
      OtherPortsSame p s t ∧ BuffersSame s t ∧ t.token = s.token ∧ t.q = s.q ∧ t.rxOvf = s.rxOvf ∧
      t.dlMode = s.dlMode ∧ t.dlType = s.dlType ∧ WireSame s t ∧ SettingSame s t) ∧
    (s.txDone = false → exec i s = .next s)

/-- R88, R59, RX_REPLY: each popped byte is stored; the REPLY_LEN-th completes with OK, the raw reply in OUT_BUF and its
byte 3 in APP_STATUS, drains Q and releases the token. -/
def Obligations.ReplyBytesAreCollectedUntilTheLast : Prop :=
  ∀ (s : State) (p : Nat) (b : Byte) (rest : List Byte), s.cfg.legal = true → p < s.ports.length →
    s.sel = { port := p, act := .engine } → (s.port p).phase = .rxReply → s.q = b :: rest →
    let reply := slice (s.rxbByte p) 0 (s.port p).r ++ [b]
    ((s.port p).r + 1 ≠ s.cfg.replyLen → ∃ t, exec .cmdReply s = .next t ∧ t.q = rest ∧
      t.port p = { s.port p with rxb := (t.port p).rxb, r := (s.port p).r + 1 } ∧
      (∀ k, t.rxbByte p k = if k = (s.port p).r then b else s.rxbByte p k) ∧
      OtherPortsSame p s t ∧ BuffersSame s t ∧ t.token = s.token ∧ FlagsSame s t ∧ WireSame s t ∧ SettingSame s t) ∧
    ((s.port p).r + 1 = s.cfg.replyLen → s.token = { held := true, owner := p } → ∃ t, exec .cmdReply s = .next t ∧
      (t.port p).result = { code := .ok, app := reply.getD 3 0x00#8, length := BitVec.ofNat 16 s.cfg.replyLen } ∧
      t.port p = { s.port p with rxb := (t.port p).rxb, r := (s.port p).r + 1, result := (t.port p).result,
                                 phase := .idle, done := true } ∧
      reply.length = s.cfg.replyLen ∧ OutHolds p reply t ∧ BuffersSameOutsideOut p s.cfg.replyLen s t ∧ t.q = [] ∧
      t.token = { held := false, owner := 0 } ∧ OtherPortsSame p s t ∧ FlagsSame s t ∧ WireSame s t ∧ SettingSame s t)

/-- R90, R92, RX_TLM: a full RXB is INCORRECT_LENGTH with no pop; else the popped byte is stored and scanned: EOM after
an unpaired ESC completes with the destuffed body cut to expected_length, drains and releases; any other byte only
moves TIDX. -/
def Obligations.TelemetryBytesAreStoredAndScanned : Prop :=
  ∀ (s : State) (p : Nat), p < s.ports.length → s.sel = { port := p, act := .engine } → (s.port p).phase = .rxTlm →
    s.token = { held := true, owner := p } →
    ((s.port p).r = s.cfg.rxbCap → ∃ t, exec .tlmReq s = .next t ∧ Reports p .incorrectLength 0x00#8 0 s t ∧ t.q = [] ∧
      t.token = { held := false, owner := 0 } ∧ OtherPortsSame p s t ∧ BuffersSame s t ∧ FlagsSame s t ∧
      WireSame s t ∧ SettingSame s t) ∧
    (∀ (b : Byte) (rest : List Byte), (s.port p).r ≠ s.cfg.rxbCap → s.q = b :: rest →
      ((s.port p).tidx = true ∧ b = s.cfg.eom →
        let out := (destuff (slice (s.rxbByte p) s.cfg.tlmHdrLen ((s.port p).r - 1))).take (s.lenOperand p)
        ∃ t, exec .tlmReq s = .next t ∧
        (t.port p).result = { code := .ok, app := 0x00#8, length := BitVec.ofNat 16 out.length } ∧
        t.port p = { s.port p with rxb := (t.port p).rxb, r := (s.port p).r + 1, result := (t.port p).result,
                                   phase := .idle, done := true } ∧
        OutHolds p out t ∧ BuffersSameOutsideOut p out.length s t ∧ t.q = [] ∧
        t.token = { held := false, owner := 0 } ∧ OtherPortsSame p s t ∧ FlagsSame s t ∧ WireSame s t ∧
        SettingSame s t) ∧
      (¬ ((s.port p).tidx = true ∧ b = s.cfg.eom) → ∃ t, exec .tlmReq s = .next t ∧ t.q = rest ∧
        t.port p = { s.port p with rxb := (t.port p).rxb, r := (s.port p).r + 1,
                                   tidx := if (s.port p).tidx then false else decide (b = ESC) } ∧
        (∀ k, t.rxbByte p k = if k = (s.port p).r then b else s.rxbByte p k) ∧
        OtherPortsSame p s t ∧ BuffersSame s t ∧ t.token = s.token ∧ FlagsSame s t ∧ WireSame s t ∧
        SettingSame s t))

/-! ## DL_ENTER, DL_RECV and DL_EXIT -/

/-- R93: DL_ENTER takes a free token, opens the session with ARG.ID as its type and completes with OK; Q is kept. While
the token is held, by any port, it has no step (nothing happens, log 5). -/
def Obligations.DlEnterOpensTheSession : Prop :=
  ∀ (s : State) (p : Nat), p < s.ports.length → s.sel = { port := p, act := .engine } →
    (s.port p).phase = .tokenWait →
    (s.token.held = false → ∃ t, exec .dlEnter s = .next t ∧ t.token = { held := true, owner := p } ∧
      t.dlMode = true ∧ t.dlType = (s.port p).arg.extractLsb' 16 8 ∧ Reports p .ok 0x00#8 0 s t ∧ t.q = s.q ∧
      OtherPortsSame p s t ∧ BuffersSame s t ∧ t.txDone = s.txDone ∧ t.rxOvf = s.rxOvf ∧ WireSame s t ∧
      SettingSame s t) ∧
    (s.token.held = true → exec .dlEnter s = .next s)

/-- R94: DL_EXIT drains Q, leaves download mode, releases the token and completes with OK; DLTYPE stays. -/
def Obligations.DlExitClosesTheSession : Prop :=
  ∀ (s : State) (p : Nat), p < s.ports.length → s.sel = { port := p, act := .engine } → (s.port p).phase = .exec →
    s.token = { held := true, owner := p } →
    ∃ t, exec .dlExit s = .next t ∧ t.q = [] ∧ t.dlMode = false ∧ t.token = { held := false, owner := 0 } ∧
      Reports p .ok 0x00#8 0 s t ∧ OtherPortsSame p s t ∧ BuffersSame s t ∧ t.dlType = s.dlType ∧
      t.txDone = s.txDone ∧ t.rxOvf = s.rxOvf ∧ WireSame s t ∧ SettingSame s t

/-- R96, one step of DL_SEEK_START: the popped byte shifts into the window; three valid bytes equal to the start marker
begin the frame in FB. -/
def Obligations.SeekStartShiftsTheWindow : Prop :=
  ∀ (s : State) (p : Nat) (b : Byte) (rest : List Byte), p < s.ports.length →
    s.sel = { port := p, act := .engine } → (s.port p).phase = .dlSeekStart → s.q = b :: rest →
    let found := 2 ≤ (s.port p).wcnt ∧
      s.windowByte p 1 = ESC ∧ s.windowByte p 2 = s.cfg.dlStart ∧ b = s.dlType
    ∃ t, exec .dlRecv s = .next t ∧ t.q = rest ∧ t.windowByte p 0 = s.windowByte p 1 ∧
      t.windowByte p 1 = s.windowByte p 2 ∧ t.windowByte p 2 = b ∧ (t.port p).wcnt = min ((s.port p).wcnt + 1) 3 ∧
      (found → t.fbByte p 0 = ESC ∧ t.fbByte p 1 = s.cfg.dlStart ∧ t.fbByte p 2 = s.dlType ∧
        t.port p = { s.port p with w := (t.port p).w, wcnt := (t.port p).wcnt, fb := (t.port p).fb, n := 3,
                                   phase := .dlAccum }) ∧
      (¬ found → t.port p = { s.port p with w := (t.port p).w, wcnt := (t.port p).wcnt }) ∧
      OtherPortsSame p s t ∧ BuffersSame s t ∧ t.token = s.token ∧ FlagsSame s t ∧ WireSame s t ∧ SettingSame s t

/-- R97, one step of DL_ACCUM: the popped byte is appended to FB with no test; DL_SEEK_END when n reaches 3 + MIN_LEN. -/
def Obligations.AccumulationAppendsWithoutATest : Prop :=
  ∀ (s : State) (p : Nat) (b : Byte) (rest : List Byte), p < s.ports.length →
    s.sel = { port := p, act := .engine } → (s.port p).phase = .dlAccum → s.q = b :: rest →
    ∃ t, exec .dlRecv s = .next t ∧ t.q = rest ∧
      (∀ k, t.fbByte p k = if k = (s.port p).n then b else s.fbByte p k) ∧
      t.port p = { s.port p with fb := (t.port p).fb, n := (s.port p).n + 1,
                                 phase := if (s.port p).n + 1 = 3 + s.cfg.minLen then .dlSeekEnd else .dlAccum } ∧
      OtherPortsSame p s t ∧ BuffersSame s t ∧ t.token = s.token ∧ FlagsSame s t ∧ WireSame s t ∧ SettingSame s t

/-- R98, R99, one step of DL_SEEK_END: at MAX_LEN it fails with INCORRECT_LENGTH and pops nothing; else the popped byte is
appended, and after ESC a DL_END completes the packet with SEQ and OUT_BUF from the destuffed body, the session left
open. -/
def Obligations.SeekEndTestsTheLastTwoBytes : Prop :=
  ∀ (s : State) (p : Nat), p < s.ports.length → s.sel = { port := p, act := .engine } →
    (s.port p).phase = .dlSeekEnd → 4 ≤ (s.port p).n →
    ((s.port p).n = s.cfg.maxLen → ∃ t, exec .dlRecv s = .next t ∧ Reports p .incorrectLength 0x00#8 0 s t ∧
      OtherPortsSame p s t ∧ BuffersSame s t ∧ SharedSame s t) ∧
    (∀ (b : Byte) (rest : List Byte), (s.port p).n ≠ s.cfg.maxLen → s.q = b :: rest →
      (s.fbByte p ((s.port p).n - 1) = ESC ∧ b = s.cfg.dlEnd →
        let thin := destuff (slice (s.fbByte p) 3 ((s.port p).n - 1))
        let out := (thin.drop 2).take s.cfg.dlDataLen
        ∃ t, exec .dlRecv s = .next t ∧ t.q = rest ∧
        (t.port p).result = { code := .ok, app := 0x00#8, length := BitVec.ofNat 16 out.length } ∧
        (2 ≤ thin.length → (t.port p).seq.toNat = (thin.getD 0 0x00#8).toNat + 256 * (thin.getD 1 0x00#8).toNat) ∧
        t.port p = { s.port p with fb := (t.port p).fb, n := (s.port p).n + 1, result := (t.port p).result,
                                   seq := (t.port p).seq, phase := .idle, done := true } ∧
        OutHolds p out t ∧ BuffersSameOutsideOut p out.length s t ∧ OtherPortsSame p s t ∧ t.token = s.token ∧
        FlagsSame s t ∧ WireSame s t ∧ SettingSame s t) ∧
      (¬ (s.fbByte p ((s.port p).n - 1) = ESC ∧ b = s.cfg.dlEnd) → ∃ t, exec .dlRecv s = .next t ∧ t.q = rest ∧
        (∀ k, t.fbByte p k = if k = (s.port p).n then b else s.fbByte p k) ∧
        t.port p = { s.port p with fb := (t.port p).fb, n := (s.port p).n + 1 } ∧
        OtherPortsSame p s t ∧ BuffersSame s t ∧ t.token = s.token ∧ FlagsSame s t ∧ WireSame s t ∧
        SettingSame s t))

/-! ## Errors -/

/-- R74, R66: while the condition of a wait is false the engine has no step (nothing happens, log 5) and the timeout
ends the operation with BUS_BUSY for the token, TRANSPORT_FAILED for any other wait; while it holds, or in BUILD or
EXEC, the timeout has no step (nothing happens, log 5). -/
def Obligations.TimeoutEndsAWaitInVain : Prop :=
  ∀ (s : State) (p : Nat), Sound s → s.busy p = true →
    (WaitsInVain s p →
      (∃ t, perform (.timeout p) s = .next t ∧
        Reports p (if (s.port p).phase = .tokenWait then .busBusy else .transportFailed) 0x00#8 0 s t ∧
        t.txDone = s.txDone ∧ WireSame s t ∧ BuffersSame s t ∧ OtherPortsSame p s t) ∧
      perform (.engine p) s = .next (s.select p .engine)) ∧
    (¬ WaitsInVain s p → perform (.timeout p) s = .next (s.select p .timeout))

/-- R104: what each terminal path of each operation in progress does to Q, the token and G.DL_MODE; an issue, BAD_COMMAND
or not, leaves all three unchanged. -/
def Obligations.TerminalStepsFollowTheCleanupTable : Prop :=
  (∀ (s t : State) (p : Nat) (w : Word), Sound s → p < s.cfg.nPorts → s.busy p = false →
    perform (.hostWrite (p * 0x1000) .four w) s = .next t →
    t.q = s.q ∧ t.token = s.token ∧ t.dlMode = s.dlMode) ∧
  ∀ (s t : State) (p : Nat) (i : Instr) (e : Event), Sound s → s.busy p = true → (s.port p).op = opcodeOf i →
    e = .engine p ∨ e = .timeout p → perform e s = .next t → t.busy p = false →
    let code := (t.port p).result.code
    let untouched := t.q = s.q ∧ t.token = s.token ∧ t.dlMode = s.dlMode
    let drained := t.q = [] ∧ t.token = { held := false, owner := 0 }
    (i = .stuff ∨ i = .destuff → (code = .ok ∨ code = .allocationFailed) ∧ untouched) ∧
    (i = .cmdReply → (code = .busBusy ∧ untouched) ∨
      ((code = .allocationFailed ∨ code = .transportFailed ∨ code = .ok) ∧ drained ∧ t.dlMode = s.dlMode)) ∧
    (i = .tlmReq → (code = .busBusy ∧ untouched) ∨
      ((code = .allocationFailed ∨ code = .transportFailed ∨ code = .incorrectLength ∨ code = .ok) ∧ drained ∧
        t.dlMode = s.dlMode)) ∧
    (i = .cmdNoreply → (code = .allocationFailed ∨ code = .transportFailed ∨ code = .ok) ∧ untouched) ∧
    (i = .dlEnter → (code = .busBusy ∧ untouched) ∨
      (code = .ok ∧ t.q = s.q ∧ t.token = { held := true, owner := p } ∧ t.dlMode = true)) ∧
    (i = .dlRecv → t.token = s.token ∧ t.dlMode = s.dlMode ∧
      (((code = .transportFailed ∨ code = .incorrectLength) ∧ t.q = s.q) ∨ (code = .ok ∧ ∃ b, s.q = b :: t.q))) ∧
    (i = .dlExit → code = .ok ∧ drained ∧ t.dlMode = false)

/-- R102, R103: an error records its code with APP_STATUS = 0 and LENGTH = 0 and sets DONE; it writes neither OUT_BUF nor
SEQ, and takes back neither a frame nor a signal nor a byte of Q. -/
def Obligations.ErrorsRecordTheirCodeAndWriteNoOutput : Prop :=
  ∀ (s t : State) (p : Nat) (e : Event), Sound s → s.busy p = true → e = .engine p ∨ e = .timeout p →
    perform e s = .next t → t.busy p = false → (t.port p).result.code ≠ .ok →
    (t.port p).result.app = 0x00#8 ∧ (t.port p).result.length = 0#16 ∧ (t.port p).done = true ∧
    (t.port p).seq = (s.port p).seq ∧ (t.port p).arg = (s.port p).arg ∧ BuffersSame s t ∧ WireSame s t ∧
    t.txDone = s.txDone ∧ (t.q = s.q ∨ t.q = [])

/-! ## Host accesses -/

/-- R41: an illegal access, read or write, gets a bus error and changes nothing (the answer is recorded in resp, log 7). -/
def Obligations.IllegalAccessGetsABusError : Prop :=
  ∀ (s : State) (a : Nat) (n : Width) (v : Word) (rest : List Event), s.cfg.legal = true →
    s.cfg.nPorts * 0x1000 ≤ a ∨ (a % 0x1000 < 0x400 ∧ (n ≠ .four ∨ a % 4 ≠ 0)) ∨
      (0x400 ≤ a % 0x1000 ∧ a % n.bytes ≠ 0) →
    s.sched = .hostRead a n :: rest ∨ s.sched = .hostWrite a n v :: rest →
    step s = .next { s with sched := rest, resp := .busError }

/-- R43: no read has a side effect: only the answer (log 7) and the schedule change, and the same read again gets the same
answer. -/
def Obligations.ReadsHaveNoSideEffect : Prop :=
  ∀ (s : State) (a : Nat) (n : Width) (rest : List Event), s.cfg.legal = true →
    s.sched = .hostRead a n :: rest →
    ∃ t, step s = .next t ∧ t = { s with sched := rest, resp := t.resp } ∧
      step { t with sched := .hostRead a n :: rest } = .next t

/-- R43: doing a legal write twice has the effect of doing it once, for every write but one to CMD. -/
def Obligations.OtherWritesCanBeRepeated : Prop :=
  ∀ (s t : State) (a : Nat) (n : Width) (v : Word), Sound s → a % 0x1000 ≠ 0 →
    perform (.hostWrite a n v) s = .next t → perform (.hostWrite a n v) t = .next t

/-- R23 to R30, R40: what an aligned 4-byte read of each register gives; the CODE byte of each result is R56's number. -/
def Obligations.RegisterReadsGiveTheirFields : Prop :=
  ∀ (s : State) (p o : Nat), Sound s → p < s.cfg.nPorts → o < 0x400 → o % 4 = 0 →
    ∃ (v : Word) (t : State), perform (.hostRead (p * 0x1000 + o) .four) s = .next t ∧ t.resp = .data v ∧
      (o = 0x004 → v.extractLsb' 0 24 = (s.port p).arg.extractLsb' 0 24 ∧ v.extractLsb' 24 8 = 0#8) ∧
      (o = 0x008 → v.getLsbD 0 = decide ((s.port p).phase ≠ .idle) ∧ v.getLsbD 1 = (s.port p).done ∧
        v.getLsbD 2 = (s.port p).wrIgn ∧ v.getLsbD 3 = false ∧ v.extractLsb' 6 26 = 0#26 ∧
        v.extractLsb' 4 2 = (if (s.port p).phase = .dlSeekStart then 1#2 else if (s.port p).phase = .dlAccum then 2#2
          else if (s.port p).phase = .dlSeekEnd then 3#2 else 0#2)) ∧
      (o = 0x00C → v.extractLsb' 8 8 = (s.port p).result.app ∧ v.extractLsb' 16 16 = (s.port p).result.length ∧
        v.extractLsb' 0 8 = (match (s.port p).result.code with
          | .ok => 0x00#8
          | .busBusy => 0x01#8
          | .allocationFailed => 0x02#8
          | .transportFailed => 0x03#8
          | .incorrectLength => 0x04#8
          | .badCommand => 0x05#8)) ∧
      (o = 0x010 → v.extractLsb' 0 16 = (s.port p).seq ∧ v.extractLsb' 16 16 = 0#16) ∧
      (o = 0x014 → v.getLsbD 0 = s.token.held ∧ v.getLsbD 1 = s.dlMode ∧ v.getLsbD 2 = s.txDone ∧
        v.getLsbD 3 = s.rxOvf ∧ v.extractLsb' 4 4 = 0#4 ∧ (v.extractLsb' 8 8).toNat = s.token.owner ∧
        (v.extractLsb' 16 16).toNat = s.q.length) ∧
      (o = 0x018 → v.extractLsb' 0 8 = s.dlType ∧ v.extractLsb' 8 24 = 0#24) ∧
      (o = 0x000 ∨ 0x01C ≤ o → v = 0#32)

/-- R31, R32, R39, R40: a legal read of a buffer window gives in lane k below the width the byte at offset + k: the
buffer's below its capacity, 0 above. That the lanes past the width are 0 in resp is the model's choice (log 7). -/
def Obligations.BufferReadsGiveTheirLanes : Prop :=
  ∀ (s : State) (p i : Nat) (n : Width), Sound s → p < s.cfg.nPorts → i % n.bytes = 0 →
    (i < 0x400 → ∃ (v : Word) (t : State), perform (.hostRead (p * 0x1000 + 0x400 + i) n) s = .next t ∧
      t.resp = .data v ∧ ∀ k < 4, v.extractLsb' (8 * k) 8 =
        if k < n.bytes ∧ i + k < s.cfg.cmdCap then s.cmdBuf p (i + k) else 0x00#8) ∧
    (i < 0x800 → ∃ (v : Word) (t : State), perform (.hostRead (p * 0x1000 + 0x800 + i) n) s = .next t ∧
      t.resp = .data v ∧ ∀ k < 4, v.extractLsb' (8 * k) 8 =
        if k < n.bytes ∧ i + k < s.cfg.outCap then s.outBuf p (i + k) else 0x00#8)

/-- R23, R24, R31: while BUSY = 1 a legal write to CMD, ARG or CMD_BUF is ignored and sets WR_IGN, and nothing else
changes. -/
def Obligations.WritesWhileBusyAreIgnored : Prop :=
  ∀ (s : State) (p o : Nat) (n : Width) (v : Word), Sound s → s.busy p = true →
    (n = .four ∧ (o = 0x000 ∨ o = 0x004)) ∨ (0x400 ≤ o ∧ o < 0x800 ∧ o % n.bytes = 0) →
    ∃ t, perform (.hostWrite (p * 0x1000 + o) n v) s = .next t ∧ t.port p = { s.port p with wrIgn := true } ∧
      OtherPortsSame p s t ∧ BuffersSame s t ∧ SharedSame s t

/-- R24: a write to ARG of an idle port stores v[23:0]; ARG[31:24] reads 0 after it. Nothing else changes. -/
def Obligations.ArgWritesKeepTheLow24Bits : Prop :=
  ∀ (s : State) (p : Nat) (v : Word), Sound s → p < s.cfg.nPorts → s.busy p = false →
    ∃ t, perform (.hostWrite (p * 0x1000 + 0x004) .four v) s = .next t ∧
      (t.port p).arg.extractLsb' 0 24 = v.extractLsb' 0 24 ∧ (t.port p).arg.extractLsb' 24 8 = 0#8 ∧
      t.port p = { s.port p with arg := (t.port p).arg } ∧ OtherPortsSame p s t ∧ BuffersSame s t ∧ SharedSame s t

/-- R31, R40: a legal write to CMD_BUF of an idle port stores each lane below CMD_CAP; every other byte of every buffer,
and every register, is unchanged. -/
def Obligations.CmdBufWritesStoreTheirLanes : Prop :=
  ∀ (s : State) (p i : Nat) (n : Width) (v : Word), Sound s → p < s.cfg.nPorts → s.busy p = false → i < 0x400 →
    i % n.bytes = 0 →
    ∃ t, perform (.hostWrite (p * 0x1000 + 0x400 + i) n v) s = .next t ∧
      (∀ k < n.bytes, i + k < s.cfg.cmdCap → t.cmdBuf p (i + k) = v.extractLsb' (8 * k) 8) ∧
      (∀ a, (∀ k < n.bytes, i + k < s.cfg.cmdCap → a ≠ p * 0x1000 + 0x400 + (i + k)) → t.byteAt a = s.byteAt a) ∧
      t.ports = s.ports ∧ SharedSame s t

/-- R25, R28: a write to STATUS clears DONE and WR_IGN where its bits are 1, whether or not the port is BUSY; a write to
GSTATUS, by any port, clears RXOVF where its bit is 1. Nothing else changes. -/
def Obligations.StatusWritesClearTheBitsWrittenOne : Prop :=
  ∀ (s : State) (p : Nat) (v : Word), Sound s → p < s.cfg.nPorts →
    (∃ t, perform (.hostWrite (p * 0x1000 + 0x008) .four v) s = .next t ∧
      t.port p = { s.port p with done := (s.port p).done && !v.getLsbD 1, wrIgn := (s.port p).wrIgn && !v.getLsbD 2 } ∧
      OtherPortsSame p s t ∧ BuffersSame s t ∧ SharedSame s t) ∧
    (∃ t, perform (.hostWrite (p * 0x1000 + 0x014) .four v) s = .next t ∧
      t.rxOvf = (s.rxOvf && !v.getLsbD 3) ∧ t.ports = s.ports ∧ BuffersSame s t ∧ t.token = s.token ∧ t.q = s.q ∧
      t.txDone = s.txDone ∧ t.dlMode = s.dlMode ∧ t.dlType = s.dlType ∧ WireSame s t ∧ SettingSame s t)

/-- R26, R27, R29, R30, R32: a legal write to RESULT, SEQ, DLTYPE, a reserved register or the OUT_BUF window changes
nothing, WR_IGN included (the answer is recorded in resp, log 7). -/
def Obligations.ReadOnlyWindowsIgnoreWrites : Prop :=
  ∀ (s : State) (p o : Nat) (n : Width) (v : Word), s.cfg.legal = true → p < s.cfg.nPorts → o < 0x1000 →
    (n = .four ∧ o % 4 = 0 ∧ (o = 0x00C ∨ o = 0x010 ∨ (0x018 ≤ o ∧ o < 0x400))) ∨ (0x800 ≤ o ∧ o % n.bytes = 0) →
    perform (.hostWrite (p * 0x1000 + o) n v) s = .next { s with resp := .written }

/-! ## The other agents -/

/-- R68: an RX push appends its byte, or drops it and sets RXOVF when Q is full; it is never refused. -/
def Obligations.PushAppendsOrDropsTheByte : Prop :=
  ∀ (s : State) (b : Byte) (rest : List Event), s.cfg.legal = true → s.sched = .rxPush b :: rest →
    (s.q.length < s.cfg.qDepth → step s = .next { s with sched := rest, q := s.q ++ [b] }) ∧
    (s.cfg.qDepth ≤ s.q.length → step s = .next { s with sched := rest, rxOvf := true })

/-- R73: a TX completion, enabled while TXPEND > 0, decrements TXPEND and sets the one-slot signal. -/
def Obligations.TxCompletionSetsTheSignal : Prop :=
  ∀ (s : State) (rest : List Event), s.cfg.legal = true → s.sched = .txComplete :: rest → 0 < s.txPend →
    step s = .next { s with sched := rest, txPend := s.txPend - 1, txDone := true }

/-- R114, R36: what reset leaves, in any state; TXLOG and TXPEND stay. Every unspecified byte is a free value of the new
epoch: the model's form of "any value" (log 2). -/
def Obligations.ResetGivesTheResetValues : Prop :=
  ∀ (s : State) (rest : List Event), s.cfg.legal = true → s.sched = .reset :: rest →
    ∃ t, step s = .next t ∧ t.ports.length = s.cfg.nPorts ∧
      (∀ p < s.cfg.nPorts, (t.port p).phase = .idle ∧ (t.port p).op = 0x00#8 ∧ (t.port p).r = 0 ∧ (t.port p).n = 0 ∧
        (t.port p).wcnt = 0 ∧ (t.port p).tidx = false ∧ (t.port p).arg = 0#32 ∧ t.statusWord p = 0#32 ∧
        t.resultWord p = 0#32 ∧ (t.port p).seq = 0#16) ∧
      t.token = { held := false, owner := 0 } ∧ t.q = [] ∧ t.txDone = false ∧ t.rxOvf = false ∧ t.dlMode = false ∧
      t.dlType = 0x00#8 ∧ t.txLog = s.txLog ∧ t.txPend = s.txPend ∧ t.cfg = s.cfg ∧ t.epoch = s.epoch + 1 ∧
      (∀ a, t.byteAt a = Config.unspecified t.epoch (.host a)) ∧
      (∀ p k, t.rxbByte p k = Config.unspecified t.epoch (.rxb p k) ∧
        t.fbByte p k = Config.unspecified t.epoch (.fb p k) ∧
        t.windowByte p k = Config.unspecified t.epoch (.window p k))

/-! ## Rules about every step -/

/-- The reset state of every legal configuration is sound. Its clause on the frames of TXLOG holds because State.resetWith
has TXLOG empty, which is the model's choice (log 9); the rest is R36 and R8. -/
def Obligations.ResetStateIsSound : Prop := ∀ c : Config, c.legal = true → Sound (State.resetWith c)

/-- R8, R18 to R21, R69, R78, R105: every step of every agent keeps the invariant. -/
def Obligations.EveryStepKeepsSoundness : Prop := ∀ s t : State, Sound s → step s = .next t → Sound t

/-- R18, R47, R68 to R70: Q changes only by a push at its end, a pop of its first byte by an engine step of the port that
holds the token, a drain by the token's holder, or a reset. -/
def Obligations.QueueChangesOnlyByPushPopAndDrain : Prop :=
  ∀ s t : State, Sound s → step s = .next t → t.q ≠ s.q →
    (∃ b, nextEvent s = .rxPush b ∧ t.q = s.q ++ [b]) ∨
    (∃ p b, nextEvent s = .engine p ∧ s.token = { held := true, owner := p } ∧ s.q = b :: t.q) ∨
    (∃ p, (nextEvent s = .engine p ∨ nextEvent s = .timeout p) ∧ s.token = { held := true, owner := p } ∧
      t.q = [] ∧ t.token = { held := false, owner := 0 }) ∨
    (nextEvent s = .reset ∧ t.q = [])

/-- R71, R105: the token is taken only while free, by an engine step of the taking port in TOKEN_WAIT, and given up only
by a terminal step of the port that holds it, or by reset. -/
def Obligations.TokenChangesOnlyByAcquireAndRelease : Prop :=
  ∀ s t : State, Sound s → step s = .next t → t.token ≠ s.token →
    (∃ p, nextEvent s = .engine p ∧ (s.port p).phase = .tokenWait ∧ s.token.held = false ∧
      t.token = { held := true, owner := p }) ∨
    (∃ p, (nextEvent s = .engine p ∨ nextEvent s = .timeout p) ∧ s.token = { held := true, owner := p } ∧
      t.token = { held := false, owner := 0 } ∧ s.busy p = true ∧ t.busy p = false) ∨
    (nextEvent s = .reset ∧ t.token = { held := false, owner := 0 })

/-- R18, R73, R118: G.TXDONE is set only by a TX completion and cleared only by a TX_WAIT step that consumes it, or by
reset. -/
def Obligations.TxDoneChangesOnlyByCompletionAndConsumption : Prop :=
  ∀ s t : State, step s = .next t → t.txDone ≠ s.txDone →
    (t.txDone = true ∧ nextEvent s = .txComplete) ∨
    (t.txDone = false ∧ ((∃ p, nextEvent s = .engine p ∧ (s.port p).phase = .txWait) ∨ nextEvent s = .reset))

/-- R19: a session implies a held token; it is opened only by the DL_ENTER step that acquires the token, closed only by the
DL_EXIT step that releases it, or by reset, and while it stays open the token stays its opener's. -/
def Obligations.SessionLastsFromEnterToExit : Prop :=
  ∀ s t : State, Sound s → step s = .next t →
    (t.dlMode = true → t.token.held = true) ∧
    (s.dlMode = false → t.dlMode = true → ∃ p, nextEvent s = .engine p ∧ (s.port p).op = opcodeOf .dlEnter ∧
      s.token.held = false ∧ t.token = { held := true, owner := p }) ∧
    (s.dlMode = true → t.dlMode = false → nextEvent s = .reset ∨
      ∃ p, nextEvent s = .engine p ∧ (s.port p).op = opcodeOf .dlExit ∧ s.token = { held := true, owner := p } ∧
        t.token = { held := false, owner := 0 }) ∧
    (s.dlMode = true → t.dlMode = true → t.token = s.token)

/-- R72, R45, R57, R58: TXLOG only grows, by one whole frame, in the BUILD step of an engine: a command frame or a
telemetry request. -/
def Obligations.TxLogGrowsByWholeFrames : Prop :=
  ∀ s t : State, Sound s → step s = .next t → t.txLog ≠ s.txLog →
    ∃ p frame, nextEvent s = .engine p ∧ (s.port p).phase = .build ∧ (t.port p).phase = .txWait ∧
      t.txLog = s.txLog ++ [frame] ∧ t.txPend = s.txPend + 1 ∧ frame.length ≤ s.cfg.txCap ∧
      (if (s.port p).op = opcodeOf .tlmReq then frame = [ESC, s.cfg.som, s.idOperand p, ESC, s.cfg.eom]
       else frame = [ESC, s.cfg.som] ++ stuff (s.bytesOperand p) ++ [ESC, s.cfg.eom])

/-- R26, R27, R67: but for reset, RESULT of port p changes only in a completion on p: an engine step or a timeout of p
that takes it from busy to IDLE, or a CMD write to the idle port p that ends with BAD_COMMAND; and SEQ only in the
successful completion of DL_RECV. -/
def Obligations.ResultAndSeqChangeOnlyAtCompletion : Prop :=
  ∀ (s t : State) (p : Nat), Sound s → step s = .next t → nextEvent s ≠ .reset →
    ((t.port p).result ≠ (s.port p).result → (t.port p).phase = .idle ∧ (t.port p).done = true ∧
      (((nextEvent s = .engine p ∨ nextEvent s = .timeout p) ∧ s.busy p = true ∧ t.busy p = false) ∨
        (s.busy p = false ∧ (t.port p).result.code = .badCommand ∧
          ∃ w, nextEvent s = .hostWrite (p * 0x1000) .four w))) ∧
    ((t.port p).seq ≠ (s.port p).seq → nextEvent s = .engine p ∧ (s.port p).op = opcodeOf .dlRecv ∧
      (s.port p).phase = .dlSeekEnd ∧ (t.port p).phase = .idle ∧ (t.port p).result.code = .ok)

/-- R31, R32: but for reset, CMD_BUF changes only by a host write to its window while the port is not BUSY, and OUT_BUF only
below LENGTH in a successful completion of its own port. -/
def Obligations.BuffersChangeOnlyByHostWriteAndSuccess : Prop :=
  ∀ (s t : State) (p : Nat), Sound s → step s = .next t → nextEvent s ≠ .reset → p < s.cfg.nPorts →
    (∀ k < s.cfg.cmdCap, t.cmdBuf p k ≠ s.cmdBuf p k → s.busy p = false ∧
      ∃ a n v, nextEvent s = .hostWrite a n v ∧ a ≤ cmdBufAddr p k ∧ cmdBufAddr p k < a + n.bytes) ∧
    (∀ k < s.cfg.outCap, t.outBuf p k ≠ s.outBuf p k → nextEvent s = .engine p ∧ s.busy p = true ∧
      t.busy p = false ∧ (t.port p).result.code = .ok ∧ k < (t.port p).result.length.toNat)

/-- R113: an agent step about one port, or about the shared inputs, leaves every register and buffer byte of every other
port unchanged. -/
def Obligations.PortsArePrivate : Prop :=
  ∀ (s t : State) (p : Nat), Sound s → step s = .next t → nextEvent s ≠ .reset → portOf (nextEvent s) ≠ some p →
    p < s.cfg.nPorts →
    t.port p = s.port p ∧ (∀ k < s.cfg.cmdCap, t.cmdBuf p k = s.cmdBuf p k) ∧
    (∀ k < s.cfg.outCap, t.outBuf p k = s.outBuf p k)

/-- R12, R128: no step depends on T_TOKEN, T_TXDONE or T_BYTE: changing them changes nothing but themselves. -/
def Obligations.TimeoutBoundsAreNeverRead : Prop :=
  ∀ (s : State) (a b c : Nat),
    let put := fun x : State => { x with cfg := { x.cfg with tToken := a, tTxDone := b, tByte := c } }
    (∀ t, step s = .next t → step (put s) = .next (put t)) ∧
    (∀ r, step s = .refused r → step (put s) = .refused r)

/-! ## Whole receptions and transactions -/

/-- R91, R90, R92: with a scanned header that leaves TIDX = 0 and a well stuffed body, TLM_REQ finds the terminator at the
true one and at no earlier byte, and completes with the destuffed body cut to expected_length. The header [ESC, SOM, id] with id ≠ ESC leaves
TIDX = 0. -/
def Obligations.TelemetryReplyIsReceivedWhole : Prop :=
  ∀ (s : State) (p : Nat) (hdr body rest : List Byte), Sound s → (s.port p).phase = .rxTlm → (s.port p).r = 0 →
    (s.port p).tidx = false → s.q = hdr ++ body ++ [ESC, s.cfg.eom] ++ rest → hdr.length = s.cfg.tlmHdrLen →
    scanThrough s.cfg.eom false hdr = some false → WellStuffed body →
    hdr.length + body.length + 2 ≤ s.cfg.rxbCap →
    let m := hdr.length + body.length + 2
    let out := (destuff body).take (s.lenOperand p)
    (∀ id, id ≠ ESC → scanThrough s.cfg.eom false [ESC, s.cfg.som, id] = some false) ∧
    (∀ k < m, ∃ u, run k (s.placing (engineSteps p m)) = .next u ∧ (u.port p).phase = .rxTlm) ∧
    ∃ t, run m (s.placing (engineSteps p m)) = .next t ∧
      (t.port p).result = { code := .ok, app := 0x00#8, length := BitVec.ofNat 16 out.length } ∧
      (t.port p).phase = .idle ∧ (t.port p).done = true ∧ OutHolds p out t ∧ BuffersSameOutsideOut p out.length s t ∧
      t.q = [] ∧ t.token = { held := false, owner := 0 } ∧ WireSame s t ∧ t.sched = s.sched

/-- R96, R100 (a): DL_SEEK_START finds the start marker at the first position where it is complete, whatever came before
it, and no later; the garbage is dropped and the bytes after the marker stay in Q. -/
def Obligations.StartMarkerIsFoundAtItsFirstOccurrence : Prop :=
  ∀ (s : State) (p : Nat) (garbage rest : List Byte), Sound s → (s.port p).phase = .dlSeekStart →
    (s.port p).wcnt = 0 →
    let marker := [ESC, s.cfg.dlStart, s.dlType]
    s.q = garbage ++ marker ++ rest →
    (∀ k < garbage.length, ((garbage ++ marker).drop k).take 3 ≠ marker) →
    let m := garbage.length + 3
    (∀ k < m, ∃ u, run k (s.placing (engineSteps p m)) = .next u ∧ (u.port p).phase = .dlSeekStart) ∧
    ∃ t, run m (s.placing (engineSteps p m)) = .next t ∧ (t.port p).phase = .dlAccum ∧ (t.port p).n = 3 ∧
      slice (t.fbByte p) 0 3 = marker ∧ t.q = rest ∧ t.sched = s.sched ∧ BuffersSame s t

/-- R97 to R99: a body whose end marker is the first one that the end test can see is reassembled: SEQ and OUT_BUF come
from the destuffed body, the bytes after the end marker stay in Q and the session stays open. -/
def Obligations.DownloadPacketIsReassembled : Prop :=
  ∀ (s : State) (p : Nat) (body rest : List Byte), Sound s → (s.port p).phase = .dlAccum → (s.port p).n = 3 →
    let x := body ++ [ESC, s.cfg.dlEnd]
    s.q = x ++ rest → s.cfg.minLen + 1 ≤ x.length → 3 + x.length ≤ s.cfg.maxLen →
    (∀ j, s.cfg.minLen ≤ j → j + 1 < x.length → ¬ (x[j - 1]? = some ESC ∧ x[j]? = some s.cfg.dlEnd)) →
    let thin := destuff body
    let out := (thin.drop 2).take s.cfg.dlDataLen
    ∃ t, run x.length (s.placing (engineSteps p x.length)) = .next t ∧ 2 ≤ thin.length ∧
      (t.port p).result = { code := .ok, app := 0x00#8, length := BitVec.ofNat 16 out.length } ∧
      (t.port p).seq.toNat = (thin.getD 0 0x00#8).toNat + 256 * (thin.getD 1 0x00#8).toNat ∧
      (t.port p).phase = .idle ∧ (t.port p).done = true ∧ OutHolds p out t ∧ BuffersSameOutsideOut p out.length s t ∧
      t.q = rest ∧ t.token = s.token ∧ t.dlMode = true ∧ t.sched = s.sched

/-- R100 (b): with no accepted end marker in the MAX_LEN - 3 bytes after the start marker, DL_RECV ends with
INCORRECT_LENGTH after exactly those bytes; no more are popped, SEQ and the buffers are unchanged and the session stays
open. -/
def Obligations.OverlongDownloadIsCutOff : Prop :=
  ∀ (s : State) (p : Nat) (x rest : List Byte), Sound s → (s.port p).phase = .dlAccum → (s.port p).n = 3 →
    s.q = x ++ rest → x.length + 3 = s.cfg.maxLen →
    (∀ j, s.cfg.minLen ≤ j → j < x.length → ¬ (x[j - 1]? = some ESC ∧ x[j]? = some s.cfg.dlEnd)) →
    ∃ t, run (x.length + 1) (s.placing (engineSteps p (x.length + 1))) = .next t ∧
      (t.port p).result = { code := .incorrectLength, app := 0x00#8, length := 0#16 } ∧ (t.port p).phase = .idle ∧
      (t.port p).done = true ∧ t.q = rest ∧ (t.port p).seq = (s.port p).seq ∧ BuffersSame s t ∧ t.token = s.token ∧
      t.dlMode = true ∧ t.sched = s.sched

/-- R88: a whole CMD_REPLY exchange, from the CMD write on an idle block to the completion: the frame goes out, its
completion comes, the reply is pushed and collected. -/
def Obligations.CommandReplyExchangeSucceeds : Prop :=
  ∀ (s : State) (p : Nat) (reply : List Byte), Sound s → p < s.cfg.nPorts → s.busy p = false →
    s.token.held = false → s.q = [] → s.txDone = false → s.lenOperand p ≤ s.cfg.cmdCap →
    let frame := [ESC, s.cfg.som] ++ stuff (s.bytesOperand p) ++ [ESC, s.cfg.eom]
    frame.length ≤ s.cfg.txCap → reply.length = s.cfg.replyLen → s.cfg.replyLen ≤ s.cfg.qDepth →
    let es := [.hostWrite (p * 0x1000) .four 0x00000010#32, .engine p, .engine p, .txComplete, .engine p] ++
      reply.map Event.rxPush ++ engineSteps p s.cfg.replyLen
    ∃ t, run es.length (s.placing es) = .next t ∧
      (t.port p).result = { code := .ok, app := reply.getD 3 0x00#8, length := BitVec.ofNat 16 s.cfg.replyLen } ∧
      (t.port p).phase = .idle ∧ (t.port p).done = true ∧ OutHolds p reply t ∧
      BuffersSameOutsideOut p s.cfg.replyLen s t ∧ t.txLog = s.txLog ++ [frame] ∧ t.txPend = s.txPend ∧
      t.txDone = false ∧ t.token = { held := false, owner := 0 } ∧ t.q = [] ∧ t.sched = s.sched

/-- R74, R75, R76: every operation ends by itself. When the port's engine and timeout are served in turn, an operation is
over after at most len(Q) + 4 rounds, whatever it waits for. A round counts an engine step and a timeout also where R74
enables only one of them or neither: that the other changes nothing is the model's choice (log 5). -/
def Obligations.EveryOperationEnds : Prop :=
  ∀ (s : State) (p : Nat), Sound s →
    let rounds := s.q.length + 4
    ∃ t, run (2 * rounds) (s.placing (serviceRounds p rounds)) = .next t ∧ (t.port p).phase = .idle ∧
      (s.busy p = true → (t.port p).done = true) ∧ t.sched = s.sched ∧ OtherPortsSame p s t
end

