-- ==== Sys2Proof/Laws/Codec.lean ====
section
/-! SUPPORT. The equations of the codec functions and of the terminator scan, byte by byte. -/

namespace Sys2Proof.Machine

@[simp] theorem stuff_nil : stuff [] = [] := rfl

theorem stuff_cons_esc (t : List Byte) : stuff (ESC :: t) = ESC :: ESC :: stuff t := by simp [stuff]

theorem stuff_cons_of_ne {b : Byte} (h : b ≠ ESC) (t : List Byte) : stuff (b :: t) = b :: stuff t := by simp [stuff, h]

@[simp] theorem destuff_nil : destuff [] = [] := rfl

@[simp] theorem destuff_singleton (b : Byte) : destuff [b] = [b] := rfl

theorem destuff_cons_esc (c : Byte) (t : List Byte) : destuff (ESC :: c :: t) = ESC :: destuff t := by simp [destuff]

theorem destuff_cons_of_ne {b : Byte} (h : b ≠ ESC) (t : List Byte) : destuff (b :: t) = b :: destuff t := by
  cases t with
  | nil => rfl
  | cons c t => simp [destuff, h]

/-- Everything the scan of one byte can do (R90). -/
theorem scanByte_cases (eom : Byte) (tidx : Bool) (b : Byte) :
    (tidx = true ∧ b = eom ∧ scanByte eom tidx b = (true, true)) ∨
    (tidx = true ∧ b ≠ eom ∧ scanByte eom tidx b = (false, false)) ∨
    (tidx = false ∧ scanByte eom tidx b = (false, decide (b = ESC))) := by
  cases tidx <;> by_cases h : b = eom <;> simp [scanByte, h]

end Sys2Proof.Machine
end

