-- ==== Sys2Proof/Laws/State.lean ====
section
/-! SUPPORT. One lemma per field of the state per update (the fields an update does not change), then what reading a port
or a buffer byte gives after an update. -/

namespace Sys2Proof.Machine

/-! ### setPort -/
@[simp] theorem setPort_cfg (s : State) (p : Nat) (x : Port) : (s.setPort p x).cfg = s.cfg := rfl
@[simp] theorem setPort_mem (s : State) (p : Nat) (x : Port) : (s.setPort p x).mem = s.mem := rfl
@[simp] theorem setPort_token (s : State) (p : Nat) (x : Port) : (s.setPort p x).token = s.token := rfl
@[simp] theorem setPort_q (s : State) (p : Nat) (x : Port) : (s.setPort p x).q = s.q := rfl
@[simp] theorem setPort_txDone (s : State) (p : Nat) (x : Port) : (s.setPort p x).txDone = s.txDone := rfl
@[simp] theorem setPort_rxOvf (s : State) (p : Nat) (x : Port) : (s.setPort p x).rxOvf = s.rxOvf := rfl
@[simp] theorem setPort_dlMode (s : State) (p : Nat) (x : Port) : (s.setPort p x).dlMode = s.dlMode := rfl
@[simp] theorem setPort_dlType (s : State) (p : Nat) (x : Port) : (s.setPort p x).dlType = s.dlType := rfl
@[simp] theorem setPort_txLog (s : State) (p : Nat) (x : Port) : (s.setPort p x).txLog = s.txLog := rfl
@[simp] theorem setPort_txPend (s : State) (p : Nat) (x : Port) : (s.setPort p x).txPend = s.txPend := rfl
@[simp] theorem setPort_sched (s : State) (p : Nat) (x : Port) : (s.setPort p x).sched = s.sched := rfl
@[simp] theorem setPort_tick (s : State) (p : Nat) (x : Port) : (s.setPort p x).tick = s.tick := rfl
@[simp] theorem setPort_epoch (s : State) (p : Nat) (x : Port) : (s.setPort p x).epoch = s.epoch := rfl
@[simp] theorem setPort_sel (s : State) (p : Nat) (x : Port) : (s.setPort p x).sel = s.sel := rfl
@[simp] theorem setPort_resp (s : State) (p : Nat) (x : Port) : (s.setPort p x).resp = s.resp := rfl

/-! ### updPort -/
@[simp] theorem updPort_cfg (s : State) (p : Nat) (f : Port → Port) : (s.updPort p f).cfg = s.cfg := rfl
@[simp] theorem updPort_mem (s : State) (p : Nat) (f : Port → Port) : (s.updPort p f).mem = s.mem := rfl
@[simp] theorem updPort_token (s : State) (p : Nat) (f : Port → Port) : (s.updPort p f).token = s.token := rfl
@[simp] theorem updPort_q (s : State) (p : Nat) (f : Port → Port) : (s.updPort p f).q = s.q := rfl
@[simp] theorem updPort_txDone (s : State) (p : Nat) (f : Port → Port) : (s.updPort p f).txDone = s.txDone := rfl
@[simp] theorem updPort_rxOvf (s : State) (p : Nat) (f : Port → Port) : (s.updPort p f).rxOvf = s.rxOvf := rfl
@[simp] theorem updPort_dlMode (s : State) (p : Nat) (f : Port → Port) : (s.updPort p f).dlMode = s.dlMode := rfl
@[simp] theorem updPort_dlType (s : State) (p : Nat) (f : Port → Port) : (s.updPort p f).dlType = s.dlType := rfl
@[simp] theorem updPort_txLog (s : State) (p : Nat) (f : Port → Port) : (s.updPort p f).txLog = s.txLog := rfl
@[simp] theorem updPort_txPend (s : State) (p : Nat) (f : Port → Port) : (s.updPort p f).txPend = s.txPend := rfl
@[simp] theorem updPort_sched (s : State) (p : Nat) (f : Port → Port) : (s.updPort p f).sched = s.sched := rfl
@[simp] theorem updPort_tick (s : State) (p : Nat) (f : Port → Port) : (s.updPort p f).tick = s.tick := rfl
@[simp] theorem updPort_epoch (s : State) (p : Nat) (f : Port → Port) : (s.updPort p f).epoch = s.epoch := rfl
@[simp] theorem updPort_sel (s : State) (p : Nat) (f : Port → Port) : (s.updPort p f).sel = s.sel := rfl
@[simp] theorem updPort_resp (s : State) (p : Nat) (f : Port → Port) : (s.updPort p f).resp = s.resp := rfl

/-! ### toPhase -/
@[simp] theorem toPhase_cfg (s : State) (p : Nat) (ph : Phase) : (s.toPhase p ph).cfg = s.cfg := rfl
@[simp] theorem toPhase_mem (s : State) (p : Nat) (ph : Phase) : (s.toPhase p ph).mem = s.mem := rfl
@[simp] theorem toPhase_token (s : State) (p : Nat) (ph : Phase) : (s.toPhase p ph).token = s.token := rfl
@[simp] theorem toPhase_q (s : State) (p : Nat) (ph : Phase) : (s.toPhase p ph).q = s.q := rfl
@[simp] theorem toPhase_txDone (s : State) (p : Nat) (ph : Phase) : (s.toPhase p ph).txDone = s.txDone := rfl
@[simp] theorem toPhase_rxOvf (s : State) (p : Nat) (ph : Phase) : (s.toPhase p ph).rxOvf = s.rxOvf := rfl
@[simp] theorem toPhase_dlMode (s : State) (p : Nat) (ph : Phase) : (s.toPhase p ph).dlMode = s.dlMode := rfl
@[simp] theorem toPhase_dlType (s : State) (p : Nat) (ph : Phase) : (s.toPhase p ph).dlType = s.dlType := rfl
@[simp] theorem toPhase_txLog (s : State) (p : Nat) (ph : Phase) : (s.toPhase p ph).txLog = s.txLog := rfl
@[simp] theorem toPhase_txPend (s : State) (p : Nat) (ph : Phase) : (s.toPhase p ph).txPend = s.txPend := rfl
@[simp] theorem toPhase_sched (s : State) (p : Nat) (ph : Phase) : (s.toPhase p ph).sched = s.sched := rfl
@[simp] theorem toPhase_tick (s : State) (p : Nat) (ph : Phase) : (s.toPhase p ph).tick = s.tick := rfl
@[simp] theorem toPhase_epoch (s : State) (p : Nat) (ph : Phase) : (s.toPhase p ph).epoch = s.epoch := rfl
@[simp] theorem toPhase_sel (s : State) (p : Nat) (ph : Phase) : (s.toPhase p ph).sel = s.sel := rfl
@[simp] theorem toPhase_resp (s : State) (p : Nat) (ph : Phase) : (s.toPhase p ph).resp = s.resp := rfl

/-! ### writeOut -/
@[simp] theorem writeOut_cfg (s : State) (p : Nat) (bs : List Byte) : (s.writeOut p bs).cfg = s.cfg := rfl
@[simp] theorem writeOut_ports (s : State) (p : Nat) (bs : List Byte) : (s.writeOut p bs).ports = s.ports := rfl
@[simp] theorem writeOut_token (s : State) (p : Nat) (bs : List Byte) : (s.writeOut p bs).token = s.token := rfl
@[simp] theorem writeOut_q (s : State) (p : Nat) (bs : List Byte) : (s.writeOut p bs).q = s.q := rfl
@[simp] theorem writeOut_txDone (s : State) (p : Nat) (bs : List Byte) : (s.writeOut p bs).txDone = s.txDone := rfl
@[simp] theorem writeOut_rxOvf (s : State) (p : Nat) (bs : List Byte) : (s.writeOut p bs).rxOvf = s.rxOvf := rfl
@[simp] theorem writeOut_dlMode (s : State) (p : Nat) (bs : List Byte) : (s.writeOut p bs).dlMode = s.dlMode := rfl
@[simp] theorem writeOut_dlType (s : State) (p : Nat) (bs : List Byte) : (s.writeOut p bs).dlType = s.dlType := rfl
@[simp] theorem writeOut_txLog (s : State) (p : Nat) (bs : List Byte) : (s.writeOut p bs).txLog = s.txLog := rfl
@[simp] theorem writeOut_txPend (s : State) (p : Nat) (bs : List Byte) : (s.writeOut p bs).txPend = s.txPend := rfl
@[simp] theorem writeOut_sched (s : State) (p : Nat) (bs : List Byte) : (s.writeOut p bs).sched = s.sched := rfl
@[simp] theorem writeOut_tick (s : State) (p : Nat) (bs : List Byte) : (s.writeOut p bs).tick = s.tick := rfl
@[simp] theorem writeOut_epoch (s : State) (p : Nat) (bs : List Byte) : (s.writeOut p bs).epoch = s.epoch := rfl
@[simp] theorem writeOut_sel (s : State) (p : Nat) (bs : List Byte) : (s.writeOut p bs).sel = s.sel := rfl
@[simp] theorem writeOut_resp (s : State) (p : Nat) (bs : List Byte) : (s.writeOut p bs).resp = s.resp := rfl

/-! ### storeReplyByte -/
@[simp] theorem storeReplyByte_cfg (p : Nat) (b : Byte) (s : State) : (storeReplyByte p b s).cfg = s.cfg := rfl
@[simp] theorem storeReplyByte_mem (p : Nat) (b : Byte) (s : State) : (storeReplyByte p b s).mem = s.mem := rfl
@[simp] theorem storeReplyByte_token (p : Nat) (b : Byte) (s : State) : (storeReplyByte p b s).token = s.token := rfl
@[simp] theorem storeReplyByte_q (p : Nat) (b : Byte) (s : State) : (storeReplyByte p b s).q = s.q := rfl
@[simp] theorem storeReplyByte_txDone (p : Nat) (b : Byte) (s : State) : (storeReplyByte p b s).txDone = s.txDone := rfl
@[simp] theorem storeReplyByte_rxOvf (p : Nat) (b : Byte) (s : State) : (storeReplyByte p b s).rxOvf = s.rxOvf := rfl
@[simp] theorem storeReplyByte_dlMode (p : Nat) (b : Byte) (s : State) : (storeReplyByte p b s).dlMode = s.dlMode := rfl
@[simp] theorem storeReplyByte_dlType (p : Nat) (b : Byte) (s : State) : (storeReplyByte p b s).dlType = s.dlType := rfl
@[simp] theorem storeReplyByte_txLog (p : Nat) (b : Byte) (s : State) : (storeReplyByte p b s).txLog = s.txLog := rfl
@[simp] theorem storeReplyByte_txPend (p : Nat) (b : Byte) (s : State) : (storeReplyByte p b s).txPend = s.txPend := rfl
@[simp] theorem storeReplyByte_sched (p : Nat) (b : Byte) (s : State) : (storeReplyByte p b s).sched = s.sched := rfl
@[simp] theorem storeReplyByte_tick (p : Nat) (b : Byte) (s : State) : (storeReplyByte p b s).tick = s.tick := rfl
@[simp] theorem storeReplyByte_epoch (p : Nat) (b : Byte) (s : State) : (storeReplyByte p b s).epoch = s.epoch := rfl
@[simp] theorem storeReplyByte_sel (p : Nat) (b : Byte) (s : State) : (storeReplyByte p b s).sel = s.sel := rfl
@[simp] theorem storeReplyByte_resp (p : Nat) (b : Byte) (s : State) : (storeReplyByte p b s).resp = s.resp := rfl

/-! ### storeFrameByte -/
@[simp] theorem storeFrameByte_cfg (p : Nat) (b : Byte) (s : State) : (storeFrameByte p b s).cfg = s.cfg := rfl
@[simp] theorem storeFrameByte_mem (p : Nat) (b : Byte) (s : State) : (storeFrameByte p b s).mem = s.mem := rfl
@[simp] theorem storeFrameByte_token (p : Nat) (b : Byte) (s : State) : (storeFrameByte p b s).token = s.token := rfl
@[simp] theorem storeFrameByte_q (p : Nat) (b : Byte) (s : State) : (storeFrameByte p b s).q = s.q := rfl
@[simp] theorem storeFrameByte_txDone (p : Nat) (b : Byte) (s : State) : (storeFrameByte p b s).txDone = s.txDone := rfl
@[simp] theorem storeFrameByte_rxOvf (p : Nat) (b : Byte) (s : State) : (storeFrameByte p b s).rxOvf = s.rxOvf := rfl
@[simp] theorem storeFrameByte_dlMode (p : Nat) (b : Byte) (s : State) : (storeFrameByte p b s).dlMode = s.dlMode := rfl
@[simp] theorem storeFrameByte_dlType (p : Nat) (b : Byte) (s : State) : (storeFrameByte p b s).dlType = s.dlType := rfl
@[simp] theorem storeFrameByte_txLog (p : Nat) (b : Byte) (s : State) : (storeFrameByte p b s).txLog = s.txLog := rfl
@[simp] theorem storeFrameByte_txPend (p : Nat) (b : Byte) (s : State) : (storeFrameByte p b s).txPend = s.txPend := rfl
@[simp] theorem storeFrameByte_sched (p : Nat) (b : Byte) (s : State) : (storeFrameByte p b s).sched = s.sched := rfl
@[simp] theorem storeFrameByte_tick (p : Nat) (b : Byte) (s : State) : (storeFrameByte p b s).tick = s.tick := rfl
@[simp] theorem storeFrameByte_epoch (p : Nat) (b : Byte) (s : State) : (storeFrameByte p b s).epoch = s.epoch := rfl
@[simp] theorem storeFrameByte_sel (p : Nat) (b : Byte) (s : State) : (storeFrameByte p b s).sel = s.sel := rfl
@[simp] theorem storeFrameByte_resp (p : Nat) (b : Byte) (s : State) : (storeFrameByte p b s).resp = s.resp := rfl

/-! ### shiftWindow -/
@[simp] theorem shiftWindow_cfg (p : Nat) (b : Byte) (s : State) : (shiftWindow p b s).cfg = s.cfg := rfl
@[simp] theorem shiftWindow_mem (p : Nat) (b : Byte) (s : State) : (shiftWindow p b s).mem = s.mem := rfl
@[simp] theorem shiftWindow_token (p : Nat) (b : Byte) (s : State) : (shiftWindow p b s).token = s.token := rfl
@[simp] theorem shiftWindow_q (p : Nat) (b : Byte) (s : State) : (shiftWindow p b s).q = s.q := rfl
@[simp] theorem shiftWindow_txDone (p : Nat) (b : Byte) (s : State) : (shiftWindow p b s).txDone = s.txDone := rfl
@[simp] theorem shiftWindow_rxOvf (p : Nat) (b : Byte) (s : State) : (shiftWindow p b s).rxOvf = s.rxOvf := rfl
@[simp] theorem shiftWindow_dlMode (p : Nat) (b : Byte) (s : State) : (shiftWindow p b s).dlMode = s.dlMode := rfl
@[simp] theorem shiftWindow_dlType (p : Nat) (b : Byte) (s : State) : (shiftWindow p b s).dlType = s.dlType := rfl
@[simp] theorem shiftWindow_txLog (p : Nat) (b : Byte) (s : State) : (shiftWindow p b s).txLog = s.txLog := rfl
@[simp] theorem shiftWindow_txPend (p : Nat) (b : Byte) (s : State) : (shiftWindow p b s).txPend = s.txPend := rfl
@[simp] theorem shiftWindow_sched (p : Nat) (b : Byte) (s : State) : (shiftWindow p b s).sched = s.sched := rfl
@[simp] theorem shiftWindow_tick (p : Nat) (b : Byte) (s : State) : (shiftWindow p b s).tick = s.tick := rfl
@[simp] theorem shiftWindow_epoch (p : Nat) (b : Byte) (s : State) : (shiftWindow p b s).epoch = s.epoch := rfl
@[simp] theorem shiftWindow_sel (p : Nat) (b : Byte) (s : State) : (shiftWindow p b s).sel = s.sel := rfl
@[simp] theorem shiftWindow_resp (p : Nat) (b : Byte) (s : State) : (shiftWindow p b s).resp = s.resp := rfl

/-! ### drain -/
@[simp] theorem drain_cfg (s : State) : (drain s).cfg = s.cfg := rfl
@[simp] theorem drain_ports (s : State) : (drain s).ports = s.ports := rfl
@[simp] theorem drain_mem (s : State) : (drain s).mem = s.mem := rfl
@[simp] theorem drain_token (s : State) : (drain s).token = s.token := rfl
@[simp] theorem drain_txDone (s : State) : (drain s).txDone = s.txDone := rfl
@[simp] theorem drain_rxOvf (s : State) : (drain s).rxOvf = s.rxOvf := rfl
@[simp] theorem drain_dlMode (s : State) : (drain s).dlMode = s.dlMode := rfl
@[simp] theorem drain_dlType (s : State) : (drain s).dlType = s.dlType := rfl
@[simp] theorem drain_txLog (s : State) : (drain s).txLog = s.txLog := rfl
@[simp] theorem drain_txPend (s : State) : (drain s).txPend = s.txPend := rfl
@[simp] theorem drain_sched (s : State) : (drain s).sched = s.sched := rfl
@[simp] theorem drain_tick (s : State) : (drain s).tick = s.tick := rfl
@[simp] theorem drain_epoch (s : State) : (drain s).epoch = s.epoch := rfl
@[simp] theorem drain_sel (s : State) : (drain s).sel = s.sel := rfl
@[simp] theorem drain_resp (s : State) : (drain s).resp = s.resp := rfl

/-! ### acquire -/
@[simp] theorem acquire_cfg (p : Nat) (s : State) : (acquire p s).cfg = s.cfg := rfl
@[simp] theorem acquire_ports (p : Nat) (s : State) : (acquire p s).ports = s.ports := rfl
@[simp] theorem acquire_mem (p : Nat) (s : State) : (acquire p s).mem = s.mem := rfl
@[simp] theorem acquire_q (p : Nat) (s : State) : (acquire p s).q = s.q := rfl
@[simp] theorem acquire_txDone (p : Nat) (s : State) : (acquire p s).txDone = s.txDone := rfl
@[simp] theorem acquire_rxOvf (p : Nat) (s : State) : (acquire p s).rxOvf = s.rxOvf := rfl
@[simp] theorem acquire_dlMode (p : Nat) (s : State) : (acquire p s).dlMode = s.dlMode := rfl
@[simp] theorem acquire_dlType (p : Nat) (s : State) : (acquire p s).dlType = s.dlType := rfl
@[simp] theorem acquire_txLog (p : Nat) (s : State) : (acquire p s).txLog = s.txLog := rfl
@[simp] theorem acquire_txPend (p : Nat) (s : State) : (acquire p s).txPend = s.txPend := rfl
@[simp] theorem acquire_sched (p : Nat) (s : State) : (acquire p s).sched = s.sched := rfl
@[simp] theorem acquire_tick (p : Nat) (s : State) : (acquire p s).tick = s.tick := rfl
@[simp] theorem acquire_epoch (p : Nat) (s : State) : (acquire p s).epoch = s.epoch := rfl
@[simp] theorem acquire_sel (p : Nat) (s : State) : (acquire p s).sel = s.sel := rfl
@[simp] theorem acquire_resp (p : Nat) (s : State) : (acquire p s).resp = s.resp := rfl

/-! ### release -/
@[simp] theorem release_cfg (p : Nat) (s : State) : (release p s).cfg = s.cfg := by unfold release; split <;> rfl
@[simp] theorem release_ports (p : Nat) (s : State) : (release p s).ports = s.ports := by unfold release; split <;> rfl
@[simp] theorem release_mem (p : Nat) (s : State) : (release p s).mem = s.mem := by unfold release; split <;> rfl
@[simp] theorem release_q (p : Nat) (s : State) : (release p s).q = s.q := by unfold release; split <;> rfl
@[simp] theorem release_txDone (p : Nat) (s : State) : (release p s).txDone = s.txDone := by unfold release; split <;> rfl
@[simp] theorem release_rxOvf (p : Nat) (s : State) : (release p s).rxOvf = s.rxOvf := by unfold release; split <;> rfl
@[simp] theorem release_dlMode (p : Nat) (s : State) : (release p s).dlMode = s.dlMode := by unfold release; split <;> rfl
@[simp] theorem release_dlType (p : Nat) (s : State) : (release p s).dlType = s.dlType := by unfold release; split <;> rfl
@[simp] theorem release_txLog (p : Nat) (s : State) : (release p s).txLog = s.txLog := by unfold release; split <;> rfl
@[simp] theorem release_txPend (p : Nat) (s : State) : (release p s).txPend = s.txPend := by unfold release; split <;> rfl
@[simp] theorem release_sched (p : Nat) (s : State) : (release p s).sched = s.sched := by unfold release; split <;> rfl
@[simp] theorem release_tick (p : Nat) (s : State) : (release p s).tick = s.tick := by unfold release; split <;> rfl
@[simp] theorem release_epoch (p : Nat) (s : State) : (release p s).epoch = s.epoch := by unfold release; split <;> rfl
@[simp] theorem release_sel (p : Nat) (s : State) : (release p s).sel = s.sel := by unfold release; split <;> rfl
@[simp] theorem release_resp (p : Nat) (s : State) : (release p s).resp = s.resp := by unfold release; split <;> rfl

/-! ### handoff -/
@[simp] theorem handoff_cfg (f : List Byte) (s : State) : (handoff f s).cfg = s.cfg := rfl
@[simp] theorem handoff_ports (f : List Byte) (s : State) : (handoff f s).ports = s.ports := rfl
@[simp] theorem handoff_mem (f : List Byte) (s : State) : (handoff f s).mem = s.mem := rfl
@[simp] theorem handoff_token (f : List Byte) (s : State) : (handoff f s).token = s.token := rfl
@[simp] theorem handoff_q (f : List Byte) (s : State) : (handoff f s).q = s.q := rfl
@[simp] theorem handoff_txDone (f : List Byte) (s : State) : (handoff f s).txDone = s.txDone := rfl
@[simp] theorem handoff_rxOvf (f : List Byte) (s : State) : (handoff f s).rxOvf = s.rxOvf := rfl
@[simp] theorem handoff_dlMode (f : List Byte) (s : State) : (handoff f s).dlMode = s.dlMode := rfl
@[simp] theorem handoff_dlType (f : List Byte) (s : State) : (handoff f s).dlType = s.dlType := rfl
@[simp] theorem handoff_sched (f : List Byte) (s : State) : (handoff f s).sched = s.sched := rfl
@[simp] theorem handoff_tick (f : List Byte) (s : State) : (handoff f s).tick = s.tick := rfl
@[simp] theorem handoff_epoch (f : List Byte) (s : State) : (handoff f s).epoch = s.epoch := rfl
@[simp] theorem handoff_sel (f : List Byte) (s : State) : (handoff f s).sel = s.sel := rfl
@[simp] theorem handoff_resp (f : List Byte) (s : State) : (handoff f s).resp = s.resp := rfl

/-! ### txCompletion -/
@[simp] theorem txCompletion_cfg (s : State) : (txCompletion s).cfg = s.cfg := rfl
@[simp] theorem txCompletion_ports (s : State) : (txCompletion s).ports = s.ports := rfl
@[simp] theorem txCompletion_mem (s : State) : (txCompletion s).mem = s.mem := rfl
@[simp] theorem txCompletion_token (s : State) : (txCompletion s).token = s.token := rfl
@[simp] theorem txCompletion_q (s : State) : (txCompletion s).q = s.q := rfl
@[simp] theorem txCompletion_rxOvf (s : State) : (txCompletion s).rxOvf = s.rxOvf := rfl
@[simp] theorem txCompletion_dlMode (s : State) : (txCompletion s).dlMode = s.dlMode := rfl
@[simp] theorem txCompletion_dlType (s : State) : (txCompletion s).dlType = s.dlType := rfl
@[simp] theorem txCompletion_txLog (s : State) : (txCompletion s).txLog = s.txLog := rfl
@[simp] theorem txCompletion_sched (s : State) : (txCompletion s).sched = s.sched := rfl
@[simp] theorem txCompletion_tick (s : State) : (txCompletion s).tick = s.tick := rfl
@[simp] theorem txCompletion_epoch (s : State) : (txCompletion s).epoch = s.epoch := rfl
@[simp] theorem txCompletion_sel (s : State) : (txCompletion s).sel = s.sel := rfl
@[simp] theorem txCompletion_resp (s : State) : (txCompletion s).resp = s.resp := rfl

/-! ### push -/
@[simp] theorem push_cfg (b : Byte) (s : State) : (push b s).cfg = s.cfg := by unfold push; split <;> rfl
@[simp] theorem push_ports (b : Byte) (s : State) : (push b s).ports = s.ports := by unfold push; split <;> rfl
@[simp] theorem push_mem (b : Byte) (s : State) : (push b s).mem = s.mem := by unfold push; split <;> rfl
@[simp] theorem push_token (b : Byte) (s : State) : (push b s).token = s.token := by unfold push; split <;> rfl
@[simp] theorem push_txDone (b : Byte) (s : State) : (push b s).txDone = s.txDone := by unfold push; split <;> rfl
@[simp] theorem push_dlMode (b : Byte) (s : State) : (push b s).dlMode = s.dlMode := by unfold push; split <;> rfl
@[simp] theorem push_dlType (b : Byte) (s : State) : (push b s).dlType = s.dlType := by unfold push; split <;> rfl
@[simp] theorem push_txLog (b : Byte) (s : State) : (push b s).txLog = s.txLog := by unfold push; split <;> rfl
@[simp] theorem push_txPend (b : Byte) (s : State) : (push b s).txPend = s.txPend := by unfold push; split <;> rfl
@[simp] theorem push_sched (b : Byte) (s : State) : (push b s).sched = s.sched := by unfold push; split <;> rfl
@[simp] theorem push_tick (b : Byte) (s : State) : (push b s).tick = s.tick := by unfold push; split <;> rfl
@[simp] theorem push_epoch (b : Byte) (s : State) : (push b s).epoch = s.epoch := by unfold push; split <;> rfl
@[simp] theorem push_sel (b : Byte) (s : State) : (push b s).sel = s.sel := by unfold push; split <;> rfl
@[simp] theorem push_resp (b : Byte) (s : State) : (push b s).resp = s.resp := by unfold push; split <;> rfl

/-! ### accept -/
@[simp] theorem accept_cfg (p : Nat) (i : Instr) (ph : Phase) (s : State) : (accept p i ph s).cfg = s.cfg := rfl
@[simp] theorem accept_mem (p : Nat) (i : Instr) (ph : Phase) (s : State) : (accept p i ph s).mem = s.mem := rfl
@[simp] theorem accept_token (p : Nat) (i : Instr) (ph : Phase) (s : State) : (accept p i ph s).token = s.token := rfl
@[simp] theorem accept_q (p : Nat) (i : Instr) (ph : Phase) (s : State) : (accept p i ph s).q = s.q := rfl
@[simp] theorem accept_txDone (p : Nat) (i : Instr) (ph : Phase) (s : State) : (accept p i ph s).txDone = s.txDone := rfl
@[simp] theorem accept_rxOvf (p : Nat) (i : Instr) (ph : Phase) (s : State) : (accept p i ph s).rxOvf = s.rxOvf := rfl
@[simp] theorem accept_dlMode (p : Nat) (i : Instr) (ph : Phase) (s : State) : (accept p i ph s).dlMode = s.dlMode := rfl
@[simp] theorem accept_dlType (p : Nat) (i : Instr) (ph : Phase) (s : State) : (accept p i ph s).dlType = s.dlType := rfl
@[simp] theorem accept_txLog (p : Nat) (i : Instr) (ph : Phase) (s : State) : (accept p i ph s).txLog = s.txLog := rfl
@[simp] theorem accept_txPend (p : Nat) (i : Instr) (ph : Phase) (s : State) : (accept p i ph s).txPend = s.txPend := rfl
@[simp] theorem accept_sched (p : Nat) (i : Instr) (ph : Phase) (s : State) : (accept p i ph s).sched = s.sched := rfl
@[simp] theorem accept_tick (p : Nat) (i : Instr) (ph : Phase) (s : State) : (accept p i ph s).tick = s.tick := rfl
@[simp] theorem accept_epoch (p : Nat) (i : Instr) (ph : Phase) (s : State) : (accept p i ph s).epoch = s.epoch := rfl
@[simp] theorem accept_sel (p : Nat) (i : Instr) (ph : Phase) (s : State) : (accept p i ph s).sel = s.sel := rfl
@[simp] theorem accept_resp (p : Nat) (i : Instr) (ph : Phase) (s : State) : (accept p i ph s).resp = s.resp := rfl

/-! ### complete -/
@[simp] theorem complete_cfg (p : Nat) (c : ResultCode) (a : Byte) (k : Nat) (s : State) : (complete p c a k s).cfg = s.cfg := rfl
@[simp] theorem complete_mem (p : Nat) (c : ResultCode) (a : Byte) (k : Nat) (s : State) : (complete p c a k s).mem = s.mem := rfl
@[simp] theorem complete_token (p : Nat) (c : ResultCode) (a : Byte) (k : Nat) (s : State) : (complete p c a k s).token = s.token := rfl
@[simp] theorem complete_q (p : Nat) (c : ResultCode) (a : Byte) (k : Nat) (s : State) : (complete p c a k s).q = s.q := rfl
@[simp] theorem complete_txDone (p : Nat) (c : ResultCode) (a : Byte) (k : Nat) (s : State) : (complete p c a k s).txDone = s.txDone := rfl
@[simp] theorem complete_rxOvf (p : Nat) (c : ResultCode) (a : Byte) (k : Nat) (s : State) : (complete p c a k s).rxOvf = s.rxOvf := rfl
@[simp] theorem complete_dlMode (p : Nat) (c : ResultCode) (a : Byte) (k : Nat) (s : State) : (complete p c a k s).dlMode = s.dlMode := rfl
@[simp] theorem complete_dlType (p : Nat) (c : ResultCode) (a : Byte) (k : Nat) (s : State) : (complete p c a k s).dlType = s.dlType := rfl
@[simp] theorem complete_txLog (p : Nat) (c : ResultCode) (a : Byte) (k : Nat) (s : State) : (complete p c a k s).txLog = s.txLog := rfl
@[simp] theorem complete_txPend (p : Nat) (c : ResultCode) (a : Byte) (k : Nat) (s : State) : (complete p c a k s).txPend = s.txPend := rfl
@[simp] theorem complete_sched (p : Nat) (c : ResultCode) (a : Byte) (k : Nat) (s : State) : (complete p c a k s).sched = s.sched := rfl
@[simp] theorem complete_tick (p : Nat) (c : ResultCode) (a : Byte) (k : Nat) (s : State) : (complete p c a k s).tick = s.tick := rfl
@[simp] theorem complete_epoch (p : Nat) (c : ResultCode) (a : Byte) (k : Nat) (s : State) : (complete p c a k s).epoch = s.epoch := rfl
@[simp] theorem complete_sel (p : Nat) (c : ResultCode) (a : Byte) (k : Nat) (s : State) : (complete p c a k s).sel = s.sel := rfl
@[simp] theorem complete_resp (p : Nat) (c : ResultCode) (a : Byte) (k : Nat) (s : State) : (complete p c a k s).resp = s.resp := rfl

/-! ### select -/
@[simp] theorem select_cfg (s : State) (p : Nat) (a : Act) : (s.select p a).cfg = s.cfg := rfl
@[simp] theorem select_ports (s : State) (p : Nat) (a : Act) : (s.select p a).ports = s.ports := rfl
@[simp] theorem select_mem (s : State) (p : Nat) (a : Act) : (s.select p a).mem = s.mem := rfl
@[simp] theorem select_token (s : State) (p : Nat) (a : Act) : (s.select p a).token = s.token := rfl
@[simp] theorem select_q (s : State) (p : Nat) (a : Act) : (s.select p a).q = s.q := rfl
@[simp] theorem select_txDone (s : State) (p : Nat) (a : Act) : (s.select p a).txDone = s.txDone := rfl
@[simp] theorem select_rxOvf (s : State) (p : Nat) (a : Act) : (s.select p a).rxOvf = s.rxOvf := rfl
@[simp] theorem select_dlMode (s : State) (p : Nat) (a : Act) : (s.select p a).dlMode = s.dlMode := rfl
@[simp] theorem select_dlType (s : State) (p : Nat) (a : Act) : (s.select p a).dlType = s.dlType := rfl
@[simp] theorem select_txLog (s : State) (p : Nat) (a : Act) : (s.select p a).txLog = s.txLog := rfl
@[simp] theorem select_txPend (s : State) (p : Nat) (a : Act) : (s.select p a).txPend = s.txPend := rfl
@[simp] theorem select_sched (s : State) (p : Nat) (a : Act) : (s.select p a).sched = s.sched := rfl
@[simp] theorem select_tick (s : State) (p : Nat) (a : Act) : (s.select p a).tick = s.tick := rfl
@[simp] theorem select_epoch (s : State) (p : Nat) (a : Act) : (s.select p a).epoch = s.epoch := rfl
@[simp] theorem select_resp (s : State) (p : Nat) (a : Act) : (s.select p a).resp = s.resp := rfl

/-! ### The changed fields -/

@[simp] theorem setPort_ports (s : State) (p : Nat) (x : Port) : (s.setPort p x).ports = s.ports.set p x := rfl
@[simp] theorem writeOut_mem (s : State) (p : Nat) (bs : List Byte) :
    (s.writeOut p bs).mem = s.mem.writeBytes (outBufAddr p 0) bs := rfl
@[simp] theorem drain_q (s : State) : (drain s).q = [] := rfl
@[simp] theorem acquire_token (p : Nat) (s : State) : (acquire p s).token = { held := true, owner := p } := rfl
@[simp] theorem handoff_txLog (f : List Byte) (s : State) : (handoff f s).txLog = s.txLog ++ [f] := rfl
@[simp] theorem handoff_txPend (f : List Byte) (s : State) : (handoff f s).txPend = s.txPend + 1 := rfl
@[simp] theorem select_sel (s : State) (p : Nat) (a : Act) : (s.select p a).sel = { port := p, act := a } := rfl

/-! ### Ports -/

@[simp] theorem setPort_ports_length (s : State) (p : Nat) (x : Port) :
    (s.setPort p x).ports.length = s.ports.length := by simp

@[simp] theorem updPort_ports_length (s : State) (p : Nat) (f : Port → Port) :
    (s.updPort p f).ports.length = s.ports.length := by simp [State.updPort]

theorem port_setPort_same {s : State} {p : Nat} (x : Port) (h : p < s.ports.length) : (s.setPort p x).port p = x := by
  simp [State.port, State.setPort, h]

theorem port_setPort_ne {s : State} {p p' : Nat} (x : Port) (h : p' ≠ p) : (s.setPort p x).port p' = s.port p' := by
  simp [State.port, State.setPort, Ne.symm h]

theorem port_updPort_same {s : State} {p : Nat} (f : Port → Port) (h : p < s.ports.length) :
    (s.updPort p f).port p = f (s.port p) := port_setPort_same _ h

theorem port_updPort_ne {s : State} {p p' : Nat} (f : Port → Port) (h : p' ≠ p) :
    (s.updPort p f).port p' = s.port p' := port_setPort_ne _ h

/-- A port that does not exist is idle, so an operation in progress is on an existing port. -/
theorem lt_length_of_busy {s : State} {p : Nat} (h : s.busy p = true) : p < s.ports.length := by
  by_contra hp
  simp [State.busy, State.port, List.getElem?_eq_none (Nat.le_of_not_lt hp), Port.reset] at h

@[simp] theorem port_writeOut (s : State) (p p' : Nat) (bs : List Byte) : (s.writeOut p bs).port p' = s.port p' := rfl
@[simp] theorem port_drain (s : State) (p' : Nat) : (drain s).port p' = s.port p' := rfl
@[simp] theorem port_acquire (s : State) (p p' : Nat) : (acquire p s).port p' = s.port p' := rfl
@[simp] theorem port_release (s : State) (p p' : Nat) : (release p s).port p' = s.port p' := by
  unfold release; split <;> rfl
@[simp] theorem port_handoff (s : State) (f : List Byte) (p' : Nat) : (handoff f s).port p' = s.port p' := rfl
@[simp] theorem port_select (s : State) (p p' : Nat) (a : Act) : (s.select p a).port p' = s.port p' := rfl
@[simp] theorem port_push (s : State) (b : Byte) (p' : Nat) : (push b s).port p' = s.port p' := by
  unfold push; split <;> rfl

/-! ### Buffer bytes under updates that store nothing -/

@[simp] theorem byteAt_setPort (s : State) (p : Nat) (x : Port) (a : Nat) : (s.setPort p x).byteAt a = s.byteAt a := rfl
@[simp] theorem byteAt_updPort (s : State) (p : Nat) (f : Port → Port) (a : Nat) :
    (s.updPort p f).byteAt a = s.byteAt a := rfl
@[simp] theorem byteAt_drain (s : State) (a : Nat) : (drain s).byteAt a = s.byteAt a := rfl
@[simp] theorem byteAt_acquire (s : State) (p a : Nat) : (acquire p s).byteAt a = s.byteAt a := rfl
@[simp] theorem byteAt_release (s : State) (p a : Nat) : (release p s).byteAt a = s.byteAt a := by
  unfold release; split <;> rfl
@[simp] theorem byteAt_handoff (s : State) (f : List Byte) (a : Nat) : (handoff f s).byteAt a = s.byteAt a := rfl
@[simp] theorem byteAt_select (s : State) (p a : Nat) (act : Act) : (s.select p act).byteAt a = s.byteAt a := rfl
@[simp] theorem byteAt_push (s : State) (b : Byte) (a : Nat) : (push b s).byteAt a = s.byteAt a := by
  unfold push; split <;> rfl

end Sys2Proof.Machine
end

