-- ==== Sys2Proof/Laws/Memory.lean ====
section
/-! SUPPORT. Stored bytes: reading after writing, and the canonical form, which every operation keeps. -/

namespace Sys2Proof.Machine

theorem Memory.read_write_same (m : Memory) (a : Nat) (b : Byte) : (m.write a b).read a = some b := by
  induction m with
  | nil => simp [Memory.write, Memory.read]
  | cons c m ih =>
    obtain ⟨k, x⟩ := c
    simp only [Memory.write]
    split
    · simp [Memory.read]
    · split
      · simp [Memory.read]
      · simp [Memory.read, ih, Ne.symm ‹_›]

theorem Memory.read_write_ne (m : Memory) {a a' : Nat} (b : Byte) (h : a' ≠ a) : (m.write a b).read a' = m.read a' := by
  induction m with
  | nil => simp [Memory.write, Memory.read, Ne.symm h]
  | cons c m ih =>
    obtain ⟨k, x⟩ := c
    simp only [Memory.write]
    split
    · simp [Memory.read, Ne.symm h]
    · split
      · subst k; simp [Memory.read, Ne.symm h]
      · simp [Memory.read, ih]

/-- Every entry after a write is the new one or an old one. -/
theorem Memory.mem_write {m : Memory} {a : Nat} {b : Byte} {c : Host.Cell} (h : c ∈ m.write a b) :
    c = (a, b) ∨ c ∈ m := by
  induction m with
  | nil => simpa [Memory.write] using h
  | cons d m ih =>
    obtain ⟨k, x⟩ := d
    simp only [Memory.write] at h
    split at h
    · simpa using h
    · split at h
      · rcases List.mem_cons.mp h with h | h
        · exact .inl h
        · exact .inr (List.mem_cons_of_mem _ h)
      · rcases List.mem_cons.mp h with h | h
        · exact .inr (h ▸ List.mem_cons_self)
        · exact (ih h).imp id (List.mem_cons_of_mem _)

theorem Memory.write_wf {m : Memory} (a : Nat) (b : Byte) (h : m.wf) : (m.write a b).wf := by
  induction m with
  | nil => simp [Memory.write, Memory.wf]
  | cons d m ih =>
    obtain ⟨k, x⟩ := d
    obtain ⟨hk, hm⟩ := List.pairwise_cons.mp h
    simp only [Memory.write]
    split
    · rename_i hak
      refine List.pairwise_cons.mpr ⟨?_, h⟩
      intro c hc
      rcases List.mem_cons.mp hc with rfl | hc
      · exact hak
      · exact Nat.lt_trans hak (hk c hc)
    · split
      · subst a; exact List.pairwise_cons.mpr ⟨hk, hm⟩
      · refine List.pairwise_cons.mpr ⟨?_, ih hm⟩
        intro c hc
        rcases Memory.mem_write hc with rfl | hc
        · simp only; omega
        · exact hk c hc

theorem Memory.writeBytes_wf {m : Memory} (a : Nat) (bs : List Byte) (h : m.wf) : (m.writeBytes a bs).wf := by
  induction bs generalizing m a with
  | nil => exact h
  | cons b bs ih => exact ih _ (Memory.write_wf a b h)

/-- The memory of a reset state is in canonical form. -/
theorem resetWith_mem_wf (c : Config) : (State.resetWith c).mem.wf := List.Pairwise.nil

/-- Outside the written range a read gives what it gave. -/
theorem Memory.read_writeBytes_outside (m : Memory) {a a' : Nat} (bs : List Byte)
    (h : a' < a ∨ a + bs.length ≤ a') : (m.writeBytes a bs).read a' = m.read a' := by
  induction bs generalizing m a with
  | nil => rfl
  | cons b bs ih =>
    simp only [List.length_cons] at h
    rw [Memory.writeBytes, ih _ (by omega), Memory.read_write_ne _ _ (by omega)]

/-- Inside the written range a read gives the byte written there. -/
theorem Memory.read_writeBytes_inside (m : Memory) (a k : Nat) (bs : List Byte) (h : k < bs.length) :
    (m.writeBytes a bs).read (a + k) = some bs[k] := by
  induction bs generalizing m a k with
  | nil => simp at h
  | cons b bs ih =>
    cases k with
    | zero => rw [Memory.writeBytes, Memory.read_writeBytes_outside _ _ (by omega)]; exact Memory.read_write_same _ _ _
    | succ k =>
      have := ih (m.write a b) (a + 1) k (by simpa using h)
      rw [Memory.writeBytes, show a + (k + 1) = a + 1 + k by omega, this]
      rfl

theorem Memory.mem_writeBytes {m : Memory} {a : Nat} {bs : List Byte} {c : Host.Cell} (h : c ∈ m.writeBytes a bs) :
    (a ≤ c.1 ∧ c.1 < a + bs.length) ∨ c ∈ m := by
  induction bs generalizing m a with
  | nil => exact .inr h
  | cons b bs ih =>
    rcases ih h with h | h
    · left; simp only [List.length_cons]; omega
    · rcases Memory.mem_write h with rfl | h
      · left; simp
      · exact .inr h

/-! ### Buffer bytes -/

/-- A write to OUT_BUF changes no byte outside the written ones. -/
theorem byteAt_writeOut_outside (s : State) (p : Nat) (bs : List Byte) {a : Nat}
    (h : a < outBufAddr p 0 ∨ outBufAddr p 0 + bs.length ≤ a) : (s.writeOut p bs).byteAt a = s.byteAt a := by
  simp [State.byteAt, Memory.read_writeBytes_outside _ _ h]

/-- A write to OUT_BUF stores its bytes in order. -/
theorem outBuf_writeOut (s : State) (p k : Nat) (bs : List Byte) (h : k < bs.length) :
    (s.writeOut p bs).outBuf p k = bs[k] := by
  have : outBufAddr p k = outBufAddr p 0 + k := by simp [outBufAddr]
  simp [State.outBuf, State.byteAt, this, Memory.read_writeBytes_inside _ _ _ _ h]

theorem slice_length (f : Nat → Byte) (i j : Nat) : (slice f i j).length = j - i := by simp [slice]

theorem slice_getElem (f : Nat → Byte) (i j k : Nat) (h : k < (slice f i j).length) : (slice f i j)[k] = f (i + k) := by
  simp [slice]

end Sys2Proof.Machine
end

