-- ==== Sys2Proof/Laws/Ops.lean ====
section
/-! SUPPORT. For each shared operation, once, everything it can do. -/

namespace Sys2Proof.Machine

/-! ### Configuration -/

/-- The thirteen constraints of R8, as inequalities. -/
theorem legal_iff (c : Config) : c.legal = true ↔
    (ESC ≠ c.som ∧ ESC ≠ c.eom ∧ c.som ≠ c.eom) ∧ (ESC ≠ c.dlStart ∧ ESC ≠ c.dlEnd) ∧ 4 ≤ c.minLen ∧
    c.minLen + 4 ≤ c.maxLen ∧ (1 ≤ c.dlDataLen ∧ c.dlDataLen ≤ c.outCap) ∧
    (4 ≤ c.replyLen ∧ c.replyLen ≤ c.rxbCap ∧ c.replyLen ≤ c.outCap) ∧ c.tlmHdrLen + 2 ≤ c.rxbCap ∧ 5 ≤ c.txCap ∧
    (1 ≤ c.cmdCap ∧ c.cmdCap ≤ 1024) ∧ (1 ≤ c.outCap ∧ c.outCap ≤ 2048) ∧ (1 ≤ c.qDepth ∧ c.qDepth ≤ 65535) ∧
    (1 ≤ c.nPorts ∧ c.nPorts ≤ 255) ∧ (c.maxLen ≤ 65535 ∧ c.rxbCap ≤ 65535) := by
  simp only [Config.legal, Config.frameMarkersDistinct, Config.downloadMarkersNotEsc, Config.minLenBound,
    Config.maxLenAboveMin, Config.dataLenBounds, Config.replyLenBounds, Config.headerFits, Config.txCapBound,
    Config.cmdCapBounds, Config.outCapBounds, Config.qDepthBounds, Config.portBounds, Config.lengthFieldBounds,
    Bool.and_eq_true, decide_eq_true_eq, and_assoc]

/-! ### Opcodes -/

/-- The opcode of a command decodes to it. -/
theorem decodeOpcode_opcodeOf (i : Instr) : decodeOpcode (opcodeOf i) = some i := by cases i <;> decide

theorem mem_all (i : Instr) : i ∈ Instr.all := by cases i <;> decide

/-! ### Queue, token, transmitter -/

theorem push_cases (b : Byte) (s : State) :
    (s.q.length < s.cfg.qDepth ∧ push b s = { s with q := s.q ++ [b] }) ∨
    (s.cfg.qDepth ≤ s.q.length ∧ push b s = { s with rxOvf := true }) := by
  unfold push
  split
  · exact .inl ⟨‹_›, rfl⟩
  · exact .inr ⟨by omega, rfl⟩

theorem owns_iff (s : State) (p : Nat) : s.owns p = true ↔ s.token = { held := true, owner := p } := by
  rcases h : s.token with ⟨held, owner⟩
  cases held <;> simp [State.owns, h]

theorem release_cases (p : Nat) (s : State) :
    (s.token = { held := true, owner := p } ∧ release p s = { s with token := Token.free }) ∨
    (s.token ≠ { held := true, owner := p } ∧ release p s = s) := by
  unfold release
  split
  · exact .inl ⟨(owns_iff s p).mp ‹_›, rfl⟩
  · exact .inr ⟨fun h => ‹¬ _› ((owns_iff s p).mpr h), rfl⟩

theorem release_of_owner {p : Nat} {s : State} (h : s.token = { held := true, owner := p }) :
    release p s = { s with token := Token.free } := by
  rcases release_cases p s with ⟨_, e⟩ | ⟨n, _⟩
  · exact e
  · exact absurd h n

/-! ### Completion and errors -/

/-- What complete writes into port p (R67). -/
theorem port_complete {s : State} {p : Nat} (c : ResultCode) (a : Byte) (k : Nat) (h : p < s.ports.length) :
    (complete p c a k s).port p =
      { s.port p with result := { code := c, app := a, length := BitVec.ofNat 16 k }, phase := .idle, done := true } :=
  port_updPort_same _ h

theorem port_complete_ne {s : State} {p p' : Nat} (c : ResultCode) (a : Byte) (k : Nat) (h : p' ≠ p) :
    (complete p c a k s).port p' = s.port p' := port_updPort_ne _ h

/-- What an acceptance writes into port p (R65). -/
theorem port_accept {s : State} {p : Nat} (i : Instr) (ph : Phase) (h : p < s.ports.length) :
    (accept p i ph s).port p = { s.port p with done := false, op := opcodeOf i, phase := ph } := port_updPort_same _ h

theorem cleanup_nothing (p : Nat) (s : State) : cleanup Cleanup.nothing p s = s := rfl

theorem cleanup_drainAndRelease (p : Nat) (s : State) : cleanup Cleanup.drainAndRelease p s = release p (drain s) := rfl

/-- No cleanup touches a port. -/
@[simp] theorem port_cleanup (c : Cleanup) (p p' : Nat) (s : State) : (cleanup c p s).port p' = s.port p' := by
  rcases c with ⟨d, r, m⟩
  cases d <;> cases r <;> cases m <;> simp [cleanup, State.port, release, drain] <;> split <;> rfl

@[simp] theorem cleanup_ports (c : Cleanup) (p : Nat) (s : State) : (cleanup c p s).ports = s.ports := by
  rcases c with ⟨d, r, m⟩
  cases d <;> cases r <;> cases m <;> simp [cleanup, release, drain] <;> split <;> rfl

@[simp] theorem cleanup_cfg (c : Cleanup) (p : Nat) (s : State) : (cleanup c p s).cfg = s.cfg := by
  rcases c with ⟨d, r, m⟩
  cases d <;> cases r <;> cases m <;> simp [cleanup, release, drain] <;> split <;> rfl

/-- No cleanup stores a byte. -/
@[simp] theorem cleanup_mem (c : Cleanup) (p : Nat) (s : State) : (cleanup c p s).mem = s.mem := by
  rcases c with ⟨d, r, m⟩
  cases d <;> cases r <;> cases m <;> simp [cleanup, release, drain] <;> split <;> rfl

@[simp] theorem cleanup_epoch (c : Cleanup) (p : Nat) (s : State) : (cleanup c p s).epoch = s.epoch := by
  rcases c with ⟨d, r, m⟩
  cases d <;> cases r <;> cases m <;> simp [cleanup, release, drain] <;> split <;> rfl

@[simp] theorem byteAt_cleanup (c : Cleanup) (p a : Nat) (s : State) : (cleanup c p s).byteAt a = s.byteAt a := by
  simp [State.byteAt]

/-- A terminal step leaves port p idle with its result, and everything else of the port as it was (R67, R103). -/
theorem port_terminate {s : State} {p : Nat} (i : Instr) (c : ResultCode) (a : Byte) (k : Nat)
    (h : p < s.ports.length) : (terminate i p c a k s).port p =
      { s.port p with result := { code := c, app := a, length := BitVec.ofNat 16 k }, phase := .idle, done := true } := by
  rw [terminate, port_complete _ _ _ (by simpa using h), port_cleanup]

theorem port_terminate_ne {s : State} {p p' : Nat} (i : Instr) (c : ResultCode) (a : Byte) (k : Nat) (h : p' ≠ p) :
    (terminate i p c a k s).port p' = s.port p' := by
  rw [terminate, port_complete_ne _ _ _ h, port_cleanup]

@[simp] theorem byteAt_terminate (i : Instr) (p : Nat) (c : ResultCode) (a : Byte) (k : Nat) (s : State) (x : Nat) :
    (terminate i p c a k s).byteAt x = s.byteAt x := by
  rw [terminate, complete, byteAt_updPort, byteAt_cleanup]

/-! ### Waits -/

theorem awaitToken_cases (p : Nat) (k : State → State) (s : State) :
    (s.token.held = true ∧ awaitToken p k s = s) ∨ (s.token.held = false ∧ awaitToken p k s = k (acquire p s)) := by
  unfold awaitToken
  cases h : s.token.held
  · exact .inr ⟨rfl, by simp⟩
  · exact .inl ⟨rfl, by simp⟩

theorem awaitTxDone_cases (k : State → State) (s : State) :
    (s.txDone = false ∧ awaitTxDone k s = s) ∨
    (s.txDone = true ∧ awaitTxDone k s = k { s with txDone := false }) := by
  unfold awaitTxDone
  cases h : s.txDone
  · exact .inl ⟨rfl, by simp⟩
  · exact .inr ⟨rfl, by simp⟩

theorem awaitByte_cases (k : Byte → State → State) (s : State) :
    (s.q = [] ∧ awaitByte k s = s) ∨ ∃ b rest, s.q = b :: rest ∧ awaitByte k s = k b { s with q := rest } := by
  unfold awaitByte
  split
  · exact .inl ⟨‹_›, rfl⟩
  · exact .inr ⟨_, _, ‹_›, rfl⟩

/-- A timeout does nothing, or takes the error of its wait (R74). -/
theorem timeoutStep_cases (i : Instr) (p : Nat) (s : State) :
    (s.waitCondition p (s.port p).phase = some false ∧
      timeoutStep i p s = raiseFail i p (timeoutCode (s.port p).phase) s) ∨
    (s.waitCondition p (s.port p).phase ≠ some false ∧ timeoutStep i p s = s) := by
  unfold timeoutStep
  split
  · exact .inl ⟨‹_›, rfl⟩
  · exact .inr ⟨‹_›, rfl⟩

/-! ### Issue -/

theorem issueBuffered_cases (i : Instr) (ph : Phase) (p : Nat) (s : State) :
    (s.cfg.cmdCap < s.lenOperand p ∧ issueBuffered i ph p s = raiseFail i p .badCommand s) ∨
    (s.lenOperand p ≤ s.cfg.cmdCap ∧ issueBuffered i ph p s = accept p i ph s) := by
  unfold issueBuffered
  split
  · exact .inl ⟨‹_›, rfl⟩
  · exact .inr ⟨by omega, rfl⟩

theorem issueInSession_cases (i : Instr) (ph : Phase) (p : Nat) (s : State) :
    (s.ownsSession p = true ∧ issueInSession i ph p s = accept p i ph s) ∨
    (s.ownsSession p = false ∧ issueInSession i ph p s = raiseFail i p .badCommand s) := by
  unfold issueInSession
  cases h : s.ownsSession p
  · exact .inr ⟨rfl, by simp⟩
  · exact .inl ⟨rfl, by simp⟩

/-! ### The step -/

/-- The next agent step is the first one scheduled. -/
theorem nextEvent_scheduled {s : State} {e : Event} {rest : List Event} (h : s.sched = e :: rest) :
    nextEvent s = e := by unfold nextEvent; rw [h]

theorem afterDraw_scheduled {s : State} {e : Event} {rest : List Event} (h : s.sched = e :: rest) :
    afterDraw s = { s with sched := rest } := by unfold afterDraw; rw [h]

/-- Drawing the next agent step changes only the schedule and the tick. -/
theorem afterDraw_cases (s : State) :
    (∃ e rest, s.sched = e :: rest ∧ afterDraw s = { s with sched := rest }) ∨
    (s.sched = [] ∧ afterDraw s = { s with tick := s.tick + 1 }) := by
  unfold afterDraw
  split
  · exact .inl ⟨_, _, ‹_›, rfl⟩
  · exact .inr ⟨‹_›, rfl⟩

/-- A step is the next agent's step, on a legal configuration. -/
theorem step_cases (s : State) :
    (s.cfg.legal = true ∧ step s = perform (nextEvent s) (afterDraw s)) ∨
    (s.cfg.legal = false ∧ step s = .refused .illegalConfiguration) := by
  unfold step nextStep nextEvent afterDraw performLegal
  cases hl : s.cfg.legal <;> cases s.sched <;> simp [hl]

/-- On a legal configuration with a scheduled step, that step is performed. -/
theorem step_scheduled {s : State} {e : Event} {rest : List Event} (hl : s.cfg.legal = true) (h : s.sched = e :: rest) :
    step s = perform e { s with sched := rest } := by
  rcases step_cases s with ⟨_, e'⟩ | ⟨hf, _⟩
  · rw [e', nextEvent_scheduled h, afterDraw_scheduled h]
  · simp [hl] at hf

/-- Every meaning answers a next state: no instruction faults or is refused (R101). -/
theorem exec_answers (i : Instr) (s : State) : ∃ t, exec i s = .next t := by
  cases i <;> cases h : s.sel.act <;>
    simp [exec, execStuff, execDestuff, execCmdReply, execCmdNoreply, execTlmReq, execDlEnter, execDlRecv, execDlExit, h]

end Sys2Proof.Machine
end

