-- ==== Sys2Proof/Laws/PerInstr.lean ====
section
/-! SUPPORT. Facts about every command, one lemma per constructor. -/

namespace Sys2Proof.Laws.Encoded

/-- The encoding of a command has RSVD = 0 and a row of the opcode map in OPCODE (R52, R54), and its operation passes at
least one phase, never IDLE (R20). -/
def Statement (i : Instr) : Prop :=
  i.wellFormed = true ∧ reservedField (encode i) = 0 ∧ opcodeField (encode i) = opcodeOf i ∧
  (opcodeOf i, i) ∈ opcodeMap ∧ Machine.phasesOf i ≠ [] ∧ Machine.Phase.idle ∉ Machine.phasesOf i

theorem stuff : Statement .stuff := by unfold Statement; decide
theorem destuff : Statement .destuff := by unfold Statement; decide
theorem cmdReply : Statement .cmdReply := by unfold Statement; decide
theorem cmdNoreply : Statement .cmdNoreply := by unfold Statement; decide
theorem tlmReq : Statement .tlmReq := by unfold Statement; decide
theorem dlEnter : Statement .dlEnter := by unfold Statement; decide
theorem dlRecv : Statement .dlRecv := by unfold Statement; decide
theorem dlExit : Statement .dlExit := by unfold Statement; decide

end Sys2Proof.Laws.Encoded
end

