-- ==== Sys2Proof/Tests/Slice0.lean ====
section
/-! SUPPORT. Tests: the checks of WellFormed, decoding of words written out from R52 and R54, single steps with the results
that spec/95_test_vectors.md gives, and for every statement with hypotheses a state that meets them. -/

namespace Sys2Proof.Machine

/-! ## Helpers -/

/-- The outcome is a next state with property f. -/
def after (o : Host.Outcome State Fault Refusal) (f : State → Bool) : Bool :=
  match o with
  | .next t => f t
  | _ => false

theorem after_eq_true {o : Host.Outcome State Fault Refusal} {f : State → Bool} (h : after o f = true) :
    ∃ t, o = .next t ∧ f t = true := by
  cases o with
  | next t => exact ⟨t, rfl, h⟩
  | fault _ => cases h
  | refused _ => cases h

/-- A small legal configuration with CMD_CAP > OUT_CAP. -/
def small : Config :=
  { som := 0x7F#8, eom := 0xFF#8, dlStart := 0x7F#8, dlEnd := 0xFF#8, minLen := 4, maxLen := 10, dlDataLen := 3,
    replyLen := 4, tlmHdrLen := 1, qDepth := 6, nPorts := 2, cmdCap := 8, outCap := 5, txCap := 8, rxbCap := 6,
    tToken := 0, tTxDone := 0, tByte := 0 }

/-- The small block after reset. -/
def base : State := State.resetWith small

/-- The small block with operation i in a phase on port 0, as the engine's or the timeout's turn. -/
def doing (i : Instr) (ph : Phase) (f : Port → Port := id) : State :=
  { base with ports := [f { Port.reset with phase := ph, op := opcodeOf i }, Port.reset],
              sel := { port := 0, act := .engine } }

/-- Port p holds the token. -/
def owned (p : Nat) (s : State) : State := { s with token := { held := true, owner := p } }

/-- Port p has an open session of type 0xF1. -/
def session (p : Nat) (s : State) : State := { owned p s with dlMode := true, dlType := 0xF1#8 }

/-- Q holds bs. -/
def queued (bs : List Byte) (s : State) : State := { s with q := bs }

/-- e comes next. -/
def nextUp (e : Event) (s : State) : State := { s with sched := [e] }

/-- CMD_BUF of port 0 holds bs, and LEN says so. -/
def operand (bs : List Byte) (s : State) : State :=
  { s with mem := s.mem.writeBytes (cmdBufAddr 0 0) bs,
           ports := s.ports.modify 0 (fun x => { x with arg := BitVec.ofNat 32 bs.length }) }

/-- Bytes stored from index 0. -/
def stored (bs : List Byte) : Memory := Memory.writeBytes [] 0 bs

/-! ## WellFormed: each check refuses a term that breaks it alone -/

theorem test_tc_legal : Config.tc.legal = true := by decide
theorem test_small_legal : small.legal = true := by decide
theorem test_som_eq_eom_refused : { Config.tc with som := 0xFF#8 }.legal = false := by decide
theorem test_dlEnd_eq_esc_refused : { Config.tc with dlEnd := 0x1F#8 }.legal = false := by decide
theorem test_minLen_three_refused : { Config.tc with minLen := 3 }.legal = false := by decide
theorem test_maxLen_short_refused : { Config.tc with maxLen := 28 }.legal = false := by decide
theorem test_dlDataLen_zero_refused : { Config.tc with dlDataLen := 0 }.legal = false := by decide
theorem test_replyLen_three_refused : { Config.tc with replyLen := 3 }.legal = false := by decide
theorem test_header_too_long_refused : { Config.tc with tlmHdrLen := 255 }.legal = false := by decide
theorem test_txCap_four_refused : { Config.tc with txCap := 4 }.legal = false := by decide
theorem test_cmdCap_1025_refused : { Config.tc with cmdCap := 1025 }.legal = false := by decide
theorem test_outCap_2049_refused : { Config.tc with outCap := 2049 }.legal = false := by decide
theorem test_qDepth_zero_refused : { Config.tc with qDepth := 0 }.legal = false := by decide
theorem test_nPorts_256_refused : { Config.tc with nPorts := 256 }.legal = false := by decide
theorem test_maxLen_65536_refused : { Config.tc with maxLen := 65536 }.legal = false := by decide

/-! ## Decoding: words written out bit by bit, OPCODE in [7:0], RSVD in [31:8] (R52, R54) -/

theorem test_decode_stuff : decodeWord 0b00000000000000000000000000000001#32 = .ok .stuff := by decide
theorem test_decode_destuff : decodeWord 0b00000000000000000000000000000010#32 = .ok .destuff := by decide
theorem test_decode_cmdReply : decodeWord 0b00000000000000000000000000010000#32 = .ok .cmdReply := by decide
theorem test_decode_cmdNoreply : decodeWord 0b00000000000000000000000000010001#32 = .ok .cmdNoreply := by decide
theorem test_decode_tlmReq : decodeWord 0b00000000000000000000000000010010#32 = .ok .tlmReq := by decide
theorem test_decode_dlEnter : decodeWord 0b00000000000000000000000000100000#32 = .ok .dlEnter := by decide
theorem test_decode_dlRecv : decodeWord 0b00000000000000000000000000100001#32 = .ok .dlRecv := by decide
theorem test_decode_dlExit : decodeWord 0b00000000000000000000000000100010#32 = .ok .dlExit := by decide
theorem test_decode_zero_reserved : decodeWord 0#32 = .error .reservedOpcode := by decide
theorem test_decode_0x23_reserved : decodeWord 0x23#32 = .error .reservedOpcode := by decide
theorem test_decode_rsvd_reserved : decodeWord 0x00000110#32 = .error .reservedBits := by decide
theorem test_decode_bytes_little_endian :
    decode [0x22#8, 0x00#8, 0x00#8, 0x00#8, 0x55#8] = .ok (.dlExit, [0x55#8]) := by decide

/-! ## One step of each instruction (results from 95_test_vectors.md) -/

/-- W2: [0x1F, 0x02] stuffs to [0x1F, 0x1F, 0x02], RESULT = {OK, 0, 3}. -/
theorem test_stuff_W2 : after (exec .stuff (operand [0x1F#8, 0x02#8] (doing .stuff .exec))) (fun t =>
    decide (slice (t.outBuf 0) 0 3 = [0x1F#8, 0x1F#8, 0x02#8] ∧ t.resultWord 0 = 0x00030000#32 ∧
      t.statusWord 0 = 0x00000002#32)) = true := by decide

/-- W2: [0x1F, 0x1F, 0x02] destuffs to [0x1F, 0x02], RESULT = {OK, 0, 2}. -/
theorem test_destuff_W2 : after (exec .destuff (operand [0x1F#8, 0x1F#8, 0x02#8] (doing .destuff .exec))) (fun t =>
    decide (slice (t.outBuf 0) 0 2 = [0x1F#8, 0x02#8] ∧ t.resultWord 0 = 0x00020000#32)) = true := by decide

/-- T2: thin [0x1F] goes out as [0x1F, 0x7F, 0x1F, 0x1F, 0x1F, 0xFF]. -/
theorem test_cmdReply_T2 : after (exec .cmdReply (owned 0 (operand [0x1F#8] (doing .cmdReply .build)))) (fun t =>
    decide (t.txLog = [[0x1F#8, 0x7F#8, 0x1F#8, 0x1F#8, 0x1F#8, 0xFF#8]] ∧ t.txPend = 1)) = true := by decide

/-- T7 (here with REPLY_LEN = 4): byte 3 of the reply is APP_STATUS, and the bytes after the reply are drained. -/
theorem test_cmdReply_T7 : after (exec .cmdReply (owned 0 (queued [0x05#8, 0xAA#8, 0xBB#8]
    (doing .cmdReply .rxReply (fun x => { x with r := 3, rxb := stored [0x1F#8, 0x7F#8, 0x01#8] }))))) (fun t =>
    decide (t.resultWord 0 = 0x00040500#32 ∧ t.q = [] ∧ t.token = Token.free ∧
      slice (t.outBuf 0) 0 4 = [0x1F#8, 0x7F#8, 0x01#8, 0x05#8])) = true := by decide

/-- T10: CMD_NOREPLY completes when its frame's completion is consumed, {OK, 0, 0}; here while port 1 holds the token
(T11). -/
theorem test_cmdNoreply_T10 : after (exec .cmdNoreply (owned 1 { doing .cmdNoreply .txWait with txDone := true }))
    (fun t => decide (t.resultWord 0 = 0#32 ∧ t.txDone = false ∧ t.token = { held := true, owner := 1 } ∧
      t.statusWord 0 = 2#32)) = true := by decide

/-- T20: the request for 0x8A is [0x1F, 0x7F, 0x8A, 0x1F, 0xFF]. -/
theorem test_tlmReq_T20 : after (exec .tlmReq (owned 0 (doing .tlmReq .build (fun x => { x with arg := 0x8A0004#32 }))))
    (fun t => decide (t.txLog = [[0x1F#8, 0x7F#8, 0x8A#8, 0x1F#8, 0xFF#8]])) = true := by decide

/-- T20's body (here after a one-byte header): the stuffed [0x03, 0x1F, 0x1F] gives OUT_BUF [0x03, 0x1F]. -/
theorem test_tlmReq_body : after (exec .tlmReq (owned 0 (queued [0xFF#8, 0x44#8]
    (doing .tlmReq .rxTlm (fun x => { x with arg := 0x8A0004#32, r := 5, tidx := true,
                                             rxb := stored [0x8A#8, 0x03#8, 0x1F#8, 0x1F#8, 0x1F#8] }))))) (fun t =>
    decide (t.resultWord 0 = 0x00020000#32 ∧ slice (t.outBuf 0) 0 2 = [0x03#8, 0x1F#8] ∧ t.q = [])) = true := by decide

/-- T30: DL_ENTER with ID = 0xF1 gives GSTATUS = 0x00000003 and DLTYPE = 0xF1. -/
theorem test_dlEnter_T30 : after (exec .dlEnter (doing .dlEnter .tokenWait (fun x => { x with arg := 0xF10000#32 })))
    (fun t => decide (t.gstatusWord = 0x00000003#32 ∧ t.dltypeWord = 0x000000F1#32 ∧ t.resultWord 0 = 0#32)) = true := by
  decide

/-- T36: [0x1F, 0x1F, 0x7F, 0xF1]: the marker is found whatever came before it. -/
theorem test_dlRecv_T36 : after (exec .dlRecv (session 0 (queued [0xF1#8]
    (doing .dlRecv .dlSeekStart (fun x => { x with wcnt := 3, w := stored [0x1F#8, 0x1F#8, 0x7F#8] }))))) (fun t =>
    decide ((t.port 0).phase = .dlAccum ∧ (t.port 0).n = 3 ∧ t.statusWord 0 = 0x00000021#32)) = true := by decide

/-- T42's counter: the body [0x1F, 0x1F, 0x00, ...] gives SEQ = 0x001F; the session stays open. -/
theorem test_dlRecv_T42 : after (exec .dlRecv (session 0 (queued [0xFF#8, 0x77#8]
    (doing .dlRecv .dlSeekEnd (fun x => { x with n := 9, fb := stored (
      [0x1F#8, 0x7F#8, 0xF1#8] ++ [0x1F#8, 0x1F#8, 0x00#8, 0x20#8, 0x21#8, 0x1F#8]) }))))) (fun t =>
    decide (t.seqWord 0 = 0x1F#32 ∧ t.resultWord 0 = 0x00020000#32 ∧ slice (t.outBuf 0) 0 2 = [0x20#8, 0x21#8] ∧
      t.q = [0x77#8] ∧ t.dlMode = true)) = true := by decide

/-- T33: DL_EXIT drains Q, closes the session and frees the token. -/
theorem test_dlExit_T33 : after (exec .dlExit (session 0 (queued [0x09#8] (doing .dlExit .exec)))) (fun t =>
    decide (t.gstatusWord = 0#32 ∧ t.q = [] ∧ t.resultWord 0 = 0#32)) = true := by decide

/-- T73: a command word with RSVD ≠ 0 completes at once with BAD_COMMAND. -/
theorem test_badCommand_T73 : after (step (nextUp (.hostWrite 0 .four 0x110#32) base)) (fun t =>
    decide (t.resultWord 0 = 5#32 ∧ t.statusWord 0 = 2#32)) = true := by decide

/-! ## Witnesses: the hypotheses of every statement are met, each clause at a boundary of its range -/

/-! ### Decoding and the step -/

theorem test_witness_DecodeOfEncodedBytesGivesTheCommand : Instr.dlExit.wellFormed = true := by decide

theorem test_witness_StepRunsTheIssuedCommand :
    base.cfg.legal = true ∧ 1 < base.cfg.nPorts ∧ base.busy 1 = false ∧
    (nextUp (.hostWrite (1 * 0x1000) .four 0x22#32) base).sched = .hostWrite (1 * 0x1000) .four 0x22#32 :: [] ∧
    decodeWord 0x22#32 = .ok .dlExit := by decide

theorem test_witness_StepRunsTheOperationInProgress :
    let s := doing .cmdReply .tokenWait
    s.cfg.legal = true ∧ s.busy 0 = true ∧ (s.port 0).op = opcodeOf .cmdReply ∧
    (nextUp (.engine 0) s).sched = .engine 0 :: [] ∧ (nextUp (.timeout 0) s).sched = .timeout 0 :: [] := by decide

/-- Both clauses: MIN_LEN = 3 breaks a constraint, MIN_LEN = 4 breaks none. -/
theorem test_witness_IllegalConfigurationsAreRefused :
    ¬ 4 ≤ (State.resetWith { small with minLen := 3 }).cfg.minLen ∧ 4 ≤ base.cfg.minLen ∧ base.cfg.legal = true := by
  decide

theorem test_witness_StepStopsOnlyOnASpuriousCompletion :
    base.cfg.legal = true ∧ nextEvent (nextUp .txComplete base) = .txComplete ∧ base.txPend = 0 := by decide

/-! ### The codec functions -/

/-- [0x01, ESC, ESC] is well stuffed. -/
theorem test_witness_wellStuffed : WellStuffed [0x01#8, ESC, ESC] := by
  intro u k v h hu hv
  have hl := congrArg List.length h
  simp only [List.length_append, List.length_replicate, List.length_cons, List.length_nil] at hl
  have hk : k ≤ 3 := by omega
  interval_cases k
  · rfl
  · rcases u with _ | ⟨a, _ | ⟨b, _ | ⟨c, u⟩⟩⟩
    · simp [ESC] at h
    · obtain ⟨-, rfl⟩ : 1#8 = a ∧ [ESC] = v := by simpa using h
      exact absurd rfl hv
    · simp at h; simp [h] at hu
    · simp at hl; omega
  · rfl
  · have : u = [] := List.eq_nil_of_length_eq_zero (by omega)
    subst this; simp [List.replicate, ESC] at h

/-- [ESC, 0x05] is not. -/
theorem test_witness_not_wellStuffed : ¬ WellStuffed [ESC, 0x05#8] := fun h =>
  absurd (h [] 1 [0x05#8] rfl (by decide) (by decide)) (by decide)

/-- The clauses about an odd run: an empty prefix and one that does not end in ESC. -/
theorem test_witness_StuffedSequencesAreTheWellStuffedOnes :
    ([] : List Byte).getLast? ≠ some ESC ∧ WellStuffed [] ∧ (0x05#8 : Byte) ≠ ESC :=
  ⟨by decide, fun u k v h _ _ => by
    have hl := congrArg List.length h
    simp only [List.length_append, List.length_replicate, List.length_nil] at hl
    omega, by decide⟩

/-! ### Issue -/

/-- A CMD write of w to port 0, which is idle. -/
def canIssue (w : Word) (s : State) : Bool :=
  decide (s.cfg.legal = true ∧ s.ports.length = s.cfg.nPorts ∧ 0 < s.cfg.nPorts ∧ s.busy 0 = false ∧
    s.sched = [.hostWrite (0 * 0x1000) .four w])

/-- Refused commands: RSVD ≠ 0; the first reserved opcode after each family; LEN = CMD_CAP + 1; another's session. -/
theorem test_witness_CmdWriteIssuesTheCommand_bad :
    canIssue 0x101#32 (nextUp (.hostWrite 0 .four 0x101#32) base) = true ∧
    canIssue 0x03#32 (nextUp (.hostWrite 0 .four 0x03#32) base) = true ∧
    canIssue 0x23#32 (nextUp (.hostWrite 0 .four 0x23#32) base) = true ∧
    (let s := nextUp (.hostWrite 0 .four 0x01#32) (base.updPort 0 (fun x => { x with arg := 9#32 }))
     canIssue 0x01#32 s = true ∧ s.cfg.cmdCap < ((s.port 0).arg.extractLsb' 0 16).toNat) ∧
    canIssue 0x21#32 (nextUp (.hostWrite 0 .four 0x21#32) (session 1 base)) = true := by decide

/-- Accepted commands: LEN = CMD_CAP; the port's own session. -/
theorem test_witness_CmdWriteIssuesTheCommand_accepted :
    (let s := nextUp (.hostWrite 0 .four 0x01#32) (base.updPort 0 (fun x => { x with arg := 8#32 }))
     canIssue 0x01#32 s = true ∧ ¬ s.cfg.cmdCap < ((s.port 0).arg.extractLsb' 0 16).toNat) ∧
    canIssue 0x22#32 (nextUp (.hostWrite 0 .four 0x22#32) (session 0 base)) = true := by decide

/-! ### Engine steps: port 0 is in the phase and selected for an engine step -/

/-- The hypotheses that every engine-step statement shares. -/
def atPhase (ph : Phase) (s : State) : Bool :=
  decide (0 < s.ports.length ∧ s.sel = { port := 0, act := .engine } ∧ (s.port 0).phase = ph)

/-- The output is OUT_CAP bytes, and one more. -/
theorem test_witness_StuffExecWritesTheStuffedOperand :
    (let s := operand [1#8, 2#8, 3#8, ESC] (doing .stuff .exec)
     atPhase .exec s = true ∧ (stuff (s.bytesOperand 0)).length = s.cfg.outCap) ∧
    (let s := operand [1#8, 2#8, ESC, ESC] (doing .stuff .exec)
     atPhase .exec s = true ∧ (stuff (s.bytesOperand 0)).length = s.cfg.outCap + 1) := by decide

theorem test_witness_DestuffExecWritesTheDestuffedOperand :
    (let s := operand [1#8, 2#8, 3#8, 4#8, ESC, ESC] (doing .destuff .exec)
     atPhase .exec s = true ∧ s.lenOperand 0 ≤ s.cfg.cmdCap ∧ (destuff (s.bytesOperand 0)).length = s.cfg.outCap) ∧
    (let s := operand [1#8, 2#8, 3#8, 4#8, 5#8, 6#8] (doing .destuff .exec)
     atPhase .exec s = true ∧ s.lenOperand 0 ≤ s.cfg.cmdCap ∧ (destuff (s.bytesOperand 0)).length = s.cfg.outCap + 1) := by
  decide

theorem test_witness_TokenWaitTakesAFreeToken :
    (let s := doing .cmdReply .tokenWait
     atPhase .tokenWait s = true ∧ s.token.held = false) ∧
    (let s := owned 1 (doing .tlmReq .tokenWait)
     atPhase .tokenWait s = true ∧ s.token.held = true) := by decide

/-- Frames of TX_CAP bytes and one more, with the token for CMD_REPLY. -/
theorem test_witness_BuildHandsOffTheCommandFrame :
    (let s := operand [1#8, 2#8, ESC] (doing .cmdNoreply .build)
     atPhase .build s = true ∧
     ([ESC, s.cfg.som] ++ stuff (s.bytesOperand 0) ++ [ESC, s.cfg.eom]).length = s.cfg.txCap) ∧
    (let s := owned 0 (operand [1#8, ESC, ESC] (doing .cmdReply .build))
     atPhase .build s = true ∧ s.token = { held := true, owner := 0 } ∧
     ([ESC, s.cfg.som] ++ stuff (s.bytesOperand 0) ++ [ESC, s.cfg.eom]).length = s.cfg.txCap + 1) := by decide

theorem test_witness_BuildHandsOffTheTelemetryRequest :
    (let s := doing .tlmReq .build (fun x => { x with arg := 0x8A0005#32 })
     atPhase .build s = true ∧ s.lenOperand 0 = s.cfg.outCap) ∧
    (let s := owned 0 (doing .tlmReq .build (fun x => { x with arg := 0x8A0006#32 }))
     atPhase .build s = true ∧ s.lenOperand 0 = s.cfg.outCap + 1 ∧ s.token = { held := true, owner := 0 }) := by decide

theorem test_witness_TxWaitConsumesTheSignal :
    (let s := { doing .cmdNoreply .txWait with txDone := true }
     atPhase .txWait s = true ∧ s.txDone = true) ∧
    (let s := doing .tlmReq .txWait
     atPhase .txWait s = true ∧ s.txDone = false) := by decide

/-- The last byte but one, and the last. -/
theorem test_witness_ReplyBytesAreCollectedUntilTheLast :
    (let s := owned 0 (queued [7#8] (doing .cmdReply .rxReply (fun x => { x with r := 2, rxb := stored [1#8, 2#8] })))
     s.cfg.legal = true ∧ atPhase .rxReply s = true ∧ s.q = 7#8 :: [] ∧ (s.port 0).r + 1 ≠ s.cfg.replyLen) ∧
    (let s := owned 0 (queued [7#8]
       (doing .cmdReply .rxReply (fun x => { x with r := 3, rxb := stored [1#8, 2#8, 3#8] })))
     s.cfg.legal = true ∧ atPhase .rxReply s = true ∧ s.q = 7#8 :: [] ∧ (s.port 0).r + 1 = s.cfg.replyLen ∧
     s.token = { held := true, owner := 0 }) := by decide

/-- RXB full; EOM into the last free place with an ESC pending; the same byte with none pending. -/
theorem test_witness_TelemetryBytesAreStoredAndScanned :
    (let s := owned 0 (doing .tlmReq .rxTlm (fun x => { x with r := 6 }))
     atPhase .rxTlm s = true ∧ s.token = { held := true, owner := 0 } ∧ (s.port 0).r = s.cfg.rxbCap) ∧
    (let s := owned 0 (queued [0xFF#8] (doing .tlmReq .rxTlm (fun x => { x with r := 5, tidx := true })))
     atPhase .rxTlm s = true ∧ s.token = { held := true, owner := 0 } ∧ (s.port 0).r ≠ s.cfg.rxbCap ∧
     s.q = s.cfg.eom :: [] ∧ (s.port 0).tidx = true) ∧
    (let s := owned 0 (queued [0xFF#8] (doing .tlmReq .rxTlm (fun x => { x with r := 5, tidx := false })))
     atPhase .rxTlm s = true ∧ (s.port 0).r ≠ s.cfg.rxbCap ∧ s.q = s.cfg.eom :: [] ∧ ¬ (s.port 0).tidx = true) := by
  decide

/-- The token free, and held by the waiting port itself. -/
theorem test_witness_DlEnterOpensTheSession :
    atPhase .tokenWait (doing .dlEnter .tokenWait) = true ∧ (doing .dlEnter .tokenWait).token.held = false ∧
    atPhase .tokenWait (session 0 (doing .dlEnter .tokenWait)) = true ∧
    (session 0 (doing .dlEnter .tokenWait)).token.held = true := by decide

theorem test_witness_DlExitClosesTheSession :
    let s := session 0 (doing .dlExit .exec)
    atPhase .exec s = true ∧ s.token = { held := true, owner := 0 } := by decide

/-- With exactly two valid bytes before it, the popped byte completes the marker; with one it cannot. -/
theorem test_witness_SeekStartShiftsTheWindow :
    let s := fun k => session 0 (queued [0xF1#8]
      (doing .dlRecv .dlSeekStart (fun x => { x with wcnt := k, w := stored [0#8, ESC, 0x7F#8] })))
    (atPhase .dlSeekStart (s 2) = true ∧ (s 2).q = 0xF1#8 :: [] ∧ 2 ≤ ((s 2).port 0).wcnt ∧
      (s 2).windowByte 0 1 = ESC ∧ (s 2).windowByte 0 2 = (s 2).cfg.dlStart ∧ 0xF1#8 = (s 2).dlType) ∧
    (atPhase .dlSeekStart (s 1) = true ∧ (s 1).q = 0xF1#8 :: [] ∧ ¬ 2 ≤ ((s 1).port 0).wcnt) := by decide

/-- The byte that reaches 3 + MIN_LEN. -/
theorem test_witness_AccumulationAppendsWithoutATest :
    let s := session 0 (queued [9#8] (doing .dlRecv .dlAccum (fun x => { x with n := 6 })))
    atPhase .dlAccum s = true ∧ s.q = 9#8 :: [] ∧ (s.port 0).n + 1 = 3 + s.cfg.minLen := by decide

/-- n = MAX_LEN; the end marker in the last place; another byte there. -/
theorem test_witness_SeekEndTestsTheLastTwoBytes :
    let s := fun n b => session 0 (queued [b]
      (doing .dlRecv .dlSeekEnd (fun x => { x with n := n, fb := (stored (List.replicate 8 1#8)).write 8 ESC })))
    (atPhase .dlSeekEnd (s 10 0xFF#8) = true ∧ ((s 10 0xFF#8).port 0).n = small.maxLen) ∧
    (atPhase .dlSeekEnd (s 9 0xFF#8) = true ∧ 4 ≤ ((s 9 0xFF#8).port 0).n ∧
      ((s 9 0xFF#8).port 0).n ≠ small.maxLen ∧ (s 9 0xFF#8).fbByte 0 8 = ESC ∧ (s 9 0xFF#8).q = small.dlEnd :: [] ∧
      2 ≤ (destuff (slice ((s 9 0xFF#8).fbByte 0) 3 8)).length) ∧
    (atPhase .dlSeekEnd (s 9 0xFE#8) = true ∧ ((s 9 0xFE#8).port 0).n ≠ small.maxLen ∧
      (s 9 0xFE#8).q = 0xFE#8 :: [] ∧ 0xFE#8 ≠ small.dlEnd) := by decide

/-! ### Errors -/

/-- A receive phase one byte below its bound, with Q empty: the wait is in vain. -/
def rxTlmBelowBound : State :=
  owned 0 (doing .tlmReq .rxTlm (fun x => { x with r := 5, rxb := stored (List.replicate 5 1#8) }))

/-- The same at its bound: the engine has a step. -/
def rxTlmAtBound : State :=
  owned 0 (doing .tlmReq .rxTlm (fun x => { x with r := 6, rxb := stored (List.replicate 6 1#8) }))

/-- TOKEN_WAIT while another port holds the token. -/
def waitingForToken : State := owned 1 (doing .cmdReply .tokenWait)

theorem test_witness_TimeoutEndsAWaitInVain_token :
    Sound waitingForToken ∧ waitingForToken.busy 0 = true ∧ WaitsInVain waitingForToken 0 :=
  ⟨by decide, by decide, show waitingForToken.token.held = true by decide⟩

theorem test_witness_TimeoutEndsAWaitInVain_byte :
    Sound rxTlmBelowBound ∧ rxTlmBelowBound.busy 0 = true ∧ WaitsInVain rxTlmBelowBound 0 :=
  ⟨by decide, by decide, show rxTlmBelowBound.q = [] ∧ (rxTlmBelowBound.port 0).r < rxTlmBelowBound.cfg.rxbCap by decide⟩

theorem test_witness_TimeoutEndsAWaitInVain_not :
    Sound rxTlmAtBound ∧ rxTlmAtBound.busy 0 = true ∧ ¬ WaitsInVain rxTlmAtBound 0 :=
  ⟨by decide, by decide,
   show ¬ (rxTlmAtBound.q = [] ∧ (rxTlmAtBound.port 0).r < rxTlmAtBound.cfg.rxbCap) by decide⟩

/-- A sound state with i in progress on port 0, which the event e ends with the code c. -/
def endsWith (i : Instr) (e : Event) (c : ResultCode) (s : State) : Bool :=
  decide (Sound s ∧ s.busy 0 = true ∧ (s.port 0).op = opcodeOf i) &&
  after (perform e s) (fun t => decide (t.busy 0 = false ∧ (t.port 0).result.code = c))

/-- An issue that completes with BAD_COMMAND, for the first clause. -/
theorem test_witness_TerminalStepsFollowTheCleanupTable_issue :
    Sound base ∧ 0 < base.cfg.nPorts ∧ base.busy 0 = false ∧
    after (perform (.hostWrite (0 * 0x1000) .four 0x22#32) base)
      (fun t => decide ((t.port 0).result.code = .badCommand)) = true := by decide

/-- One ending of each operation. -/
theorem test_witness_TerminalStepsFollowTheCleanupTable :
    endsWith .stuff (.engine 0) .ok (operand [ESC] (doing .stuff .exec)) = true ∧
    endsWith .destuff (.engine 0) .ok (operand [ESC] (doing .destuff .exec)) = true ∧
    endsWith .cmdReply (.timeout 0) .busBusy waitingForToken = true ∧
    endsWith .cmdNoreply (.timeout 0) .transportFailed (doing .cmdNoreply .txWait) = true ∧
    endsWith .tlmReq (.engine 0) .incorrectLength rxTlmAtBound = true ∧
    endsWith .dlEnter (.engine 0) .ok (doing .dlEnter .tokenWait) = true ∧
    endsWith .dlRecv (.timeout 0) .transportFailed (session 0 (doing .dlRecv .dlSeekStart)) = true ∧
    endsWith .dlExit (.engine 0) .ok (session 0 (doing .dlExit .exec)) = true := by decide

/-- An engine step and a timeout that end in an error. -/
theorem test_witness_ErrorsRecordTheirCodeAndWriteNoOutput :
    endsWith .tlmReq (.engine 0) .incorrectLength rxTlmAtBound = true ∧
    endsWith .tlmReq (.timeout 0) .transportFailed rxTlmBelowBound = true := by decide

/-! ### Host accesses -/

/-- The first address of no port; a halfword at a register; a misaligned word; a misaligned halfword of OUT_BUF. -/
theorem test_witness_IllegalAccessGetsABusError :
    base.cfg.legal = true ∧ base.cfg.nPorts * 0x1000 ≤ 0x2000 ∧ (0x03FC % 0x1000 < 0x400 ∧ Width.two ≠ .four) ∧
    (0x03FE % 0x1000 < 0x400 ∧ 0x03FE % 4 ≠ 0) ∧ (0x400 ≤ 0x1FFF % 0x1000 ∧ 0x1FFF % Width.two.bytes ≠ 0) ∧
    (nextUp (.hostRead 0x2000 .one) base).sched = [.hostRead 0x2000 .one] ∧
    (nextUp (.hostWrite 0x3FC .two 0#32) base).sched = [.hostWrite 0x3FC .two 0#32] := by decide

theorem test_witness_ReadsHaveNoSideEffect :
    let s := nextUp (.hostRead 0x14 .four) base
    s.cfg.legal = true ∧ s.sched = .hostRead 0x14 .four :: [] := by decide

theorem test_witness_OtherWritesCanBeRepeated :
    Sound base ∧ 0x0004 % 0x1000 ≠ 0 ∧ after (perform (.hostWrite 0x0004 .four 7#32) base) (fun _ => true) = true := by
  decide

/-- Offsets of each clause, the last register included. -/
theorem test_witness_RegisterReadsGiveTheirFields :
    Sound base ∧ 1 < base.cfg.nPorts ∧
    ∀ o ∈ [0x000, 0x004, 0x008, 0x00C, 0x010, 0x014, 0x018, 0x01C, 0x3FC], o < 0x400 ∧ o % 4 = 0 := by decide

theorem test_witness_BufferReadsGiveTheirLanes :
    Sound base ∧ 1 < base.cfg.nPorts ∧ (0x3FC % Width.four.bytes = 0 ∧ 0x3FC < 0x400) ∧
    (0x7FF % Width.one.bytes = 0 ∧ 0x7FF < 0x800) := by decide

theorem test_witness_WritesWhileBusyAreIgnored :
    let s := operand [ESC] (doing .stuff .exec)
    Sound s ∧ s.busy 0 = true ∧ (Width.four = .four ∧ 0x004 = 0x004) ∧
    (0x400 ≤ 0x7FF ∧ 0x7FF < 0x800 ∧ 0x7FF % Width.one.bytes = 0) := by decide

theorem test_witness_ArgWritesKeepTheLow24Bits :
    Sound base ∧ 1 < base.cfg.nPorts ∧ base.busy 1 = false := by decide

/-- A word at index 4, below CMD_CAP = 8, and the last word of the window, past it. -/
theorem test_witness_CmdBufWritesStoreTheirLanes :
    Sound base ∧ 1 < base.cfg.nPorts ∧ base.busy 1 = false ∧ (4 < 0x400 ∧ 4 % Width.four.bytes = 0) ∧
    (0x3FC < 0x400 ∧ 0x3FC % Width.four.bytes = 0) := by decide

theorem test_witness_StatusWritesClearTheBitsWrittenOne : Sound base ∧ 1 < base.cfg.nPorts := by decide

/-- RESULT, SEQ, DLTYPE, the last reserved register and the last byte of the OUT_BUF window. -/
theorem test_witness_ReadOnlyWindowsIgnoreWrites :
    base.cfg.legal = true ∧ 1 < base.cfg.nPorts ∧
    (∀ o ∈ [0x00C, 0x010, 0x018, 0x3FC], o % 4 = 0 ∧ (o = 0x00C ∨ o = 0x010 ∨ (0x018 ≤ o ∧ o < 0x400))) ∧
    (0x800 ≤ 0xFFF ∧ 0xFFF < 0x1000 ∧ 0xFFF % Width.one.bytes = 0) := by decide

/-! ### The other agents -/

/-- Q one byte below Q_DEPTH, and at it. -/
theorem test_witness_PushAppendsOrDropsTheByte :
    (let s := nextUp (.rxPush 1#8) (queued (List.replicate 5 0#8) base)
     s.cfg.legal = true ∧ s.sched = .rxPush 1#8 :: [] ∧ s.q.length < s.cfg.qDepth) ∧
    (let s := nextUp (.rxPush 1#8) (queued (List.replicate 6 0#8) base)
     s.cfg.legal = true ∧ s.sched = .rxPush 1#8 :: [] ∧ s.cfg.qDepth ≤ s.q.length) := by decide

theorem test_witness_TxCompletionSetsTheSignal :
    let s := nextUp .txComplete { base with txPend := 1 }
    s.cfg.legal = true ∧ s.sched = .txComplete :: [] ∧ 0 < s.txPend := by decide

theorem test_witness_ResetGivesTheResetValues :
    let s := nextUp .reset (session 1 (queued [1#8] (doing .stuff .exec)))
    s.cfg.legal = true ∧ s.sched = .reset :: [] ∧ 1 < s.cfg.nPorts := by decide

/-! ### Rules about every step: a sound state, its step, and the change the rule speaks of -/

/-- s is sound and its step answers a next state with property f. -/
def soundly (s : State) (f : State → Bool) : Bool := decide (Sound s) && after (step s) f

theorem test_witness_ResetStateIsSound : small.legal = true ∧ Config.tc.legal = true := by decide

theorem test_witness_EveryStepKeepsSoundness : soundly (nextUp (.engine 0) rxTlmAtBound) (fun _ => true) = true := by
  decide

/-- A reply byte is there to be popped. -/
def popping : State := owned 0 (queued [7#8, 8#8] (doing .cmdReply .rxReply))

/-- A push, a pop, a drain and a reset. -/
theorem test_witness_QueueChangesOnlyByPushPopAndDrain :
    soundly (nextUp (.rxPush 1#8) base) (fun t => decide (t.q ≠ [])) = true ∧
    soundly (nextUp (.engine 0) popping) (fun t => decide (t.q ≠ popping.q)) = true ∧
    soundly (nextUp (.engine 0) (queued [1#8] rxTlmAtBound)) (fun t => decide (t.q ≠ [1#8])) = true ∧
    soundly (nextUp .reset popping) (fun t => decide (t.q ≠ popping.q)) = true := by decide

/-- An acquire, a release and a reset. -/
theorem test_witness_TokenChangesOnlyByAcquireAndRelease :
    soundly (nextUp (.engine 0) (doing .cmdReply .tokenWait)) (fun t => decide (t.token ≠ Token.free)) = true ∧
    soundly (nextUp (.timeout 0) rxTlmBelowBound) (fun t => decide (t.token ≠ rxTlmBelowBound.token)) = true ∧
    soundly (nextUp .reset rxTlmBelowBound) (fun t => decide (t.token ≠ rxTlmBelowBound.token)) = true := by decide

/-- A completion, a consumption and a reset. -/
theorem test_witness_TxDoneChangesOnlyByCompletionAndConsumption :
    after (step (nextUp .txComplete { base with txPend := 1 })) (fun t => decide (t.txDone ≠ false)) = true ∧
    after (step (nextUp (.engine 0) { doing .cmdNoreply .txWait with txDone := true }))
      (fun t => decide (t.txDone ≠ true)) = true ∧
    after (step (nextUp .reset { base with txDone := true })) (fun t => decide (t.txDone ≠ true)) = true := by decide

/-- A session is opened, closed by DL_EXIT, closed by reset, and stays open. -/
theorem test_witness_SessionLastsFromEnterToExit :
    soundly (nextUp (.engine 0) (doing .dlEnter .tokenWait)) (fun t => decide (t.dlMode = true)) = true ∧
    soundly (nextUp (.engine 0) (session 0 (doing .dlExit .exec))) (fun t => decide (t.dlMode = false)) = true ∧
    soundly (nextUp .reset (session 1 base)) (fun t => decide (t.dlMode = false)) = true ∧
    soundly (nextUp (.rxPush 1#8) (session 1 base)) (fun t => decide (t.dlMode = true)) = true := by decide

/-- A command frame and a telemetry request. -/
theorem test_witness_TxLogGrowsByWholeFrames :
    soundly (nextUp (.engine 0) (operand [ESC] (doing .cmdNoreply .build))) (fun t => decide (t.txLog ≠ [])) = true ∧
    soundly (nextUp (.engine 0) (owned 0 (doing .tlmReq .build))) (fun t => decide (t.txLog ≠ [])) = true := by decide

/-- A download frame whose end marker is the next byte. -/
def endingPacket : State :=
  session 0 (queued [0xFF#8] (doing .dlRecv .dlSeekEnd
    (fun x => { x with n := 8, fb := stored ([ESC, 0x7F#8, 0xF1#8] ++ [5#8, 0#8, 9#8, 9#8] ++ [ESC]) })))

/-- An engine step that completes DL_RECV, a timeout, and a CMD write of a reserved word; each changes RESULT. -/
theorem test_witness_ResultAndSeqChangeOnlyAtCompletion :
    nextEvent (nextUp (.engine 0) endingPacket) ≠ .reset ∧
    soundly (nextUp (.engine 0) endingPacket) (fun t =>
      decide ((t.port 0).result ≠ (endingPacket.port 0).result ∧ (t.port 0).seq ≠ (endingPacket.port 0).seq)) = true ∧
    soundly (nextUp (.timeout 0) rxTlmBelowBound) (fun t =>
      decide ((t.port 0).result ≠ (rxTlmBelowBound.port 0).result)) = true ∧
    soundly (nextUp (.hostWrite (1 * 0x1000) .four 0x23#32) base) (fun t =>
      decide ((t.port 1).result ≠ (base.port 1).result ∧ (t.port 1).result.code = .badCommand)) = true := by
  decide

/-- A CMD_BUF byte changed by its host, and an OUT_BUF byte changed by STUFF, both written before. -/
theorem test_witness_BuffersChangeOnlyByHostWriteAndSuccess :
    soundly (nextUp (.hostWrite 0x407 .one 5#32) { base with mem := [(0x407, 1#8)] })
      (fun t => decide (0 < small.nPorts ∧ 7 < small.cmdCap ∧ t.cmdBuf 0 7 ≠ 1#8)) = true ∧
    soundly (nextUp (.engine 0) (operand [ESC] { doing .stuff .exec with mem := [(0x801, 1#8)] }))
      (fun t => decide (1 < small.outCap ∧ t.outBuf 0 1 ≠ 1#8)) = true := by decide

/-- A step about port 0, seen from port 1; and one about the shared inputs. -/
theorem test_witness_PortsArePrivate :
    (soundly (nextUp (.engine 0) endingPacket) (fun _ => true) = true ∧
      nextEvent (nextUp (.engine 0) endingPacket) ≠ .reset ∧
      portOf (nextEvent (nextUp (.engine 0) endingPacket)) ≠ some 1 ∧ 1 < small.nPorts) ∧
    (soundly (nextUp (.rxPush 1#8) base) (fun _ => true) = true ∧
      portOf (nextEvent (nextUp (.rxPush 1#8) base)) ≠ some 0) := by decide

/-- A step that answers a next state, and one that is refused. -/
theorem test_witness_TimeoutBoundsAreNeverRead :
    after (step (nextUp (.engine 0) endingPacket)) (fun _ => true) = true ∧
    step (nextUp .txComplete base) = .refused .completionWithoutFrame := ⟨by decide, rfl⟩

/-! ### Whole receptions and transactions -/

/-- A reply that fills RXB, with a stuffed ESC before its terminator. -/
theorem test_witness_TelemetryReplyIsReceivedWhole :
    (let s := owned 0 (queued ([7#8] ++ [0x01#8, ESC, ESC] ++ [ESC, 0xFF#8] ++ []) (doing .tlmReq .rxTlm))
     Sound s ∧ (s.port 0).phase = .rxTlm ∧ (s.port 0).r = 0 ∧ (s.port 0).tidx = false ∧
     s.q = [7#8] ++ [0x01#8, ESC, ESC] ++ [ESC, s.cfg.eom] ++ [] ∧ [7#8].length = s.cfg.tlmHdrLen ∧
     scanThrough s.cfg.eom false [7#8] = some false ∧ [7#8].length + [0x01#8, ESC, ESC].length + 2 = s.cfg.rxbCap) ∧
    WellStuffed [0x01#8, ESC, ESC] := ⟨by decide, test_witness_wellStuffed⟩

/-- R100 (a)'s stream: [ESC, DL_START, X] before the marker. -/
theorem test_witness_StartMarkerIsFoundAtItsFirstOccurrence :
    let g := [ESC, 0x7F#8, 0x55#8]
    let s := session 0 (queued (g ++ [ESC, 0x7F#8, 0xF1#8] ++ []) (doing .dlRecv .dlSeekStart))
    Sound s ∧ (s.port 0).phase = .dlSeekStart ∧ (s.port 0).wcnt = 0 ∧
    s.q = g ++ [ESC, s.cfg.dlStart, s.dlType] ++ [] ∧
    (∀ k < g.length, ((g ++ [ESC, s.cfg.dlStart, s.dlType]).drop k).take 3 ≠ [ESC, s.cfg.dlStart, s.dlType]) := by decide

/-- The marker is stored; Q_DEPTH is 8 here so that a whole packet fits Q. -/
def accumulating (bs : List Byte) : State :=
  let s := session 0 (queued bs (doing .dlRecv .dlAccum
    (fun x => { x with n := 3, fb := stored [ESC, 0x7F#8, 0xF1#8] })))
  { s with cfg := { small with qDepth := 8 } }

/-- The shortest packet, whose end marker begins in the last byte of the unconditional region, and the longest. -/
theorem test_witness_DownloadPacketIsReassembled_short :
    let body := [5#8, 0#8, 9#8]
    let s := accumulating (body ++ [ESC, 0xFF#8] ++ [1#8])
    Sound s ∧ (s.port 0).phase = .dlAccum ∧ (s.port 0).n = 3 ∧ s.q = body ++ [ESC, s.cfg.dlEnd] ++ [1#8] ∧
    s.cfg.minLen + 1 = (body ++ [ESC, s.cfg.dlEnd]).length ∧ 3 + (body ++ [ESC, s.cfg.dlEnd]).length ≤ s.cfg.maxLen ∧
    (∀ j, s.cfg.minLen ≤ j → j + 1 < (body ++ [ESC, s.cfg.dlEnd]).length →
      ¬ ((body ++ [ESC, s.cfg.dlEnd])[j - 1]? = some ESC ∧ (body ++ [ESC, s.cfg.dlEnd])[j]? = some s.cfg.dlEnd)) := by
  refine ⟨by decide, by decide, by decide, by decide, by decide, by decide, fun j h1 h2 => ?_⟩
  change 4 ≤ j at h1; change j + 1 < 5 at h2; omega

theorem test_witness_DownloadPacketIsReassembled_long :
    let body := [5#8, 0#8, 9#8, 9#8, 9#8]
    let s := accumulating (body ++ [ESC, 0xFF#8] ++ [])
    Sound s ∧ (s.port 0).phase = .dlAccum ∧ (s.port 0).n = 3 ∧ s.q = body ++ [ESC, s.cfg.dlEnd] ++ [] ∧
    s.cfg.minLen + 1 ≤ (body ++ [ESC, s.cfg.dlEnd]).length ∧ 3 + (body ++ [ESC, s.cfg.dlEnd]).length = s.cfg.maxLen ∧
    (∀ j, s.cfg.minLen ≤ j → j + 1 < (body ++ [ESC, s.cfg.dlEnd]).length →
      ¬ ((body ++ [ESC, s.cfg.dlEnd])[j - 1]? = some ESC ∧ (body ++ [ESC, s.cfg.dlEnd])[j]? = some s.cfg.dlEnd)) := by
  refine ⟨by decide, by decide, by decide, by decide, by decide, by decide, fun j h1 h2 => ?_⟩
  change 4 ≤ j at h1; change j + 1 < 7 at h2
  have h3 : j < 6 := by omega
  interval_cases j <;> decide

/-- An end marker wholly inside the unconditional region is not accepted; none follows. -/
theorem test_witness_OverlongDownloadIsCutOff :
    let x := [ESC, 0xFF#8, 9#8, 9#8, 9#8, 9#8, 9#8]
    let s := accumulating (x ++ [3#8])
    Sound s ∧ (s.port 0).phase = .dlAccum ∧ (s.port 0).n = 3 ∧ s.q = x ++ [3#8] ∧ x.length + 3 = s.cfg.maxLen ∧
    (∀ j, s.cfg.minLen ≤ j → j < x.length → ¬ (x[j - 1]? = some ESC ∧ x[j]? = some s.cfg.dlEnd)) := by decide

/-- A frame of TX_CAP bytes. -/
theorem test_witness_CommandReplyExchangeSucceeds :
    let s := operand [1#8, 2#8, ESC] base
    Sound s ∧ 0 < s.cfg.nPorts ∧ s.busy 0 = false ∧ s.token.held = false ∧ s.q = [] ∧ s.txDone = false ∧
    s.lenOperand 0 ≤ s.cfg.cmdCap ∧
    ([ESC, s.cfg.som] ++ stuff (s.bytesOperand 0) ++ [ESC, s.cfg.eom]).length = s.cfg.txCap ∧
    [1#8, 2#8, 3#8, 4#8].length = s.cfg.replyLen ∧ s.cfg.replyLen ≤ s.cfg.qDepth := by decide

/-- An operation that waits for the token, and an idle port. -/
theorem test_witness_EveryOperationEnds :
    Sound waitingForToken ∧ waitingForToken.busy 0 = true ∧ Sound base ∧ base.busy 0 = false := by decide

end Sys2Proof.Machine
end

/-! ## What an agent's step answers (R8, R11, R73) -/

section
namespace Sys2Proof.Machine

/-- The issue step of each command (R65), the part of `exec` that a CMD write selects. -/
def issueOf : Instr → Nat → State → State
  | .stuff => issueBuffered .stuff .exec
  | .destuff => issueBuffered .destuff .exec
  | .cmdReply => issueBuffered .cmdReply .tokenWait
  | .cmdNoreply => issueBuffered .cmdNoreply .build
  | .tlmReq => issueAlways .tlmReq .tokenWait
  | .dlEnter => issueAlways .dlEnter .tokenWait
  | .dlRecv => issueDlRecv
  | .dlExit => issueInSession .dlExit .exec

/-- The engine step of each command (R66), the part of `exec` that an engine's turn selects. -/
def engineOf : Instr → Nat → State → State
  | .stuff => stuffEngine
  | .destuff => destuffEngine
  | .cmdReply => cmdReplyEngine
  | .cmdNoreply => cmdNoreplyEngine
  | .tlmReq => tlmReqEngine
  | .dlEnter => dlEnterEngine
  | .dlRecv => dlRecvEngine
  | .dlExit => dlExitEngine

/-- The step of command i on port p of each kind. -/
def actOf (i : Instr) : Act → Nat → State → State
  | .issue => issueOf i
  | .engine => engineOf i
  | .timeout => timeoutStep i

/-- exec runs the step that was selected, on the port that was selected. -/
theorem exec_select (i : Instr) (p : Nat) (act : Act) (s : State) :
    exec i (s.select p act) = .next (actOf i act p (s.select p act)) := by
  cases i <;> cases act <;> rfl

/-- A CMD write to an idle port runs the issue step of a command, or completes with BAD_COMMAND (R55, R65). -/
theorem issue_cases (p : Nat) (w : Word) (s : State) :
    (∃ i, decodeWord w = .ok i ∧ issue p w s = .next (issueOf i p (s.select p .issue))) ∨
    (∃ e, decodeWord w = .error e ∧ issue p w s = .next (complete p .badCommand 0x00#8 0 s)) := by
  unfold issue
  cases hw : decodeWord w with
  | ok i => exact .inl ⟨i, rfl, exec_select i p .issue s⟩
  | error e => exact .inr ⟨e, rfl, rfl⟩

/-- Everything a MemWrite can do (R41, R64). -/
theorem hostWrite_cases (a : Nat) (n : Width) (v : Word) (s : State) :
    (illegalAccess s.cfg a n = true ∧ hostWrite a n v s = .next { s with resp := .busError }) ∨
    (illegalAccess s.cfg a n = false ∧ a % 0x1000 = 0 ∧ s.busy (a / 0x1000) = true ∧
      hostWrite a n v s = .next (ignoreWrite (a / 0x1000) { s with resp := .written })) ∨
    (illegalAccess s.cfg a n = false ∧ a % 0x1000 = 0 ∧ s.busy (a / 0x1000) = false ∧
      hostWrite a n v s = issue (a / 0x1000) v { s with resp := .written }) ∨
    (illegalAccess s.cfg a n = false ∧ a % 0x1000 ≠ 0 ∧
      hostWrite a n v s = .next (writeWindow (a / 0x1000) (a % 0x1000) n v { s with resp := .written })) := by
  unfold hostWrite
  cases hill : illegalAccess s.cfg a n
  · by_cases hcmd : a % 0x1000 = 0
    · cases hbusy : s.busy (a / 0x1000) <;> simp [hcmd]
    · simp [hcmd]
  · simp

/-- An engine step or a timeout runs that step of the command in OP of a busy port, or does nothing (R66, R74). -/
theorem operationStep_cases (act : Act) (p : Nat) (s : State) :
    (∃ i, s.busy p = true ∧ decodeOpcode (s.port p).op = some i ∧
      operationStep act p s = .next (actOf i act p (s.select p act))) ∨
    ((s.busy p = false ∨ decodeOpcode (s.port p).op = none) ∧ operationStep act p s = .next s) := by
  unfold operationStep
  cases hbusy : s.busy p
  · exact .inr ⟨.inl rfl, rfl⟩
  · cases hop : decodeOpcode (s.port p).op with
    | none => exact .inr ⟨.inr rfl, rfl⟩
    | some i => exact .inl ⟨i, rfl, rfl, exec_select i p act s⟩

theorem issue_answers (p : Nat) (w : Word) (s : State) : ∃ t, issue p w s = .next t := by
  rcases issue_cases p w s with ⟨i, _, h⟩ | ⟨e, _, h⟩ <;> exact ⟨_, h⟩

theorem hostWrite_answers (a : Nat) (n : Width) (v : Word) (s : State) : ∃ t, hostWrite a n v s = .next t := by
  rcases hostWrite_cases a n v s with ⟨_, h⟩ | ⟨_, _, _, h⟩ | ⟨_, _, _, h⟩ | ⟨_, _, h⟩
  · exact ⟨_, h⟩
  · exact ⟨_, h⟩
  · rw [h]; exact issue_answers _ _ _
  · exact ⟨_, h⟩

theorem operationStep_answers (act : Act) (p : Nat) (s : State) : ∃ t, operationStep act p s = .next t := by
  rcases operationStep_cases act p s with ⟨_, _, _, h⟩ | ⟨_, h⟩ <;> exact ⟨_, h⟩

/-- Every agent's step answers a next state, but for a TX completion with no pending frame (R73, R101). -/
theorem perform_cases (e : Event) (s : State) :
    (∃ t, perform e s = .next t) ∨
    (e = .txComplete ∧ s.txPend = 0 ∧ perform e s = .refused .completionWithoutFrame) := by
  cases e with
  | hostRead a n => exact .inl ⟨_, rfl⟩
  | hostWrite a n v => exact .inl (hostWrite_answers a n v s)
  | engine p => exact .inl (operationStep_answers .engine p s)
  | rxPush b => exact .inl ⟨_, rfl⟩
  | txComplete =>
    by_cases h : s.txPend = 0
    · exact .inr ⟨rfl, h, by simp [perform, h]⟩
    · exact .inl ⟨txCompletion s, by simp [perform, h]⟩
  | timeout p => exact .inl (operationStep_answers .timeout p s)
  | reset => exact .inl ⟨_, rfl⟩

/-- The refusal of an illegal configuration is that of `step` alone: no agent's step gives it. -/
theorem perform_ne_illegalConfiguration (e : Event) (s : State) :
    perform e s ≠ .refused .illegalConfiguration := by
  rcases perform_cases e s with ⟨t, h⟩ | ⟨_, _, h⟩ <;> simp [h]

/-- A step is refused for its configuration exactly when the configuration is not legal (R8). -/
theorem step_refuses_configuration_iff (s : State) :
    step s = .refused .illegalConfiguration ↔ ¬ s.cfg.legal = true := by
  rcases step_cases s with ⟨hl, h⟩ | ⟨hl, h⟩
  · simp [hl, h, perform_ne_illegalConfiguration]
  · simp [hl, h]

/-- Settles O6: `legal` is the conjunction of the thirteen constraints, and it alone decides this refusal. -/
theorem illegalConfigurationsAreRefused : Obligations.IllegalConfigurationsAreRefused := by
  intro s
  simp only [← legal_iff, ne_eq, step_refuses_configuration_iff]
  exact ⟨id, not_not_intro⟩

end Sys2Proof.Machine
end

/-! ## The timeout bounds are never read (R12, R128) -/

section
namespace Sys2Proof.Machine

/-- s in a build with other values of T_TOKEN, T_TXDONE and T_BYTE. -/
def State.withBounds (a b c : Nat) (s : State) : State :=
  { s with cfg := { s.cfg with tToken := a, tTxDone := b, tByte := c } }

/-- An outcome with its next state changed. -/
def mapNext (f : State → State) : Host.Outcome State Fault Refusal → Host.Outcome State Fault Refusal
  | .next t => .next (f t)
  | .fault r => .fault r
  | .refused r => .refused r

/-- Changing the timeout bounds before f is the same as the change `put` after it. -/
def BoundsPass {β : Type} (put : Nat → Nat → Nat → β → β) (f : State → β) : Prop :=
  ∀ a b c s, f (s.withBounds a b c) = put a b c (f s)

/-- f changes the state in a way that does not depend on the bounds, and leaves them. -/
abbrev IgnoresBounds (f : State → State) : Prop := BoundsPass State.withBounds f

/-- The answer of f does not depend on the bounds, and a next state keeps them. -/
abbrev OutcomeIgnoresBounds (f : State → Host.Outcome State Fault Refusal) : Prop :=
  BoundsPass (fun a b c => mapNext (State.withBounds a b c)) f

/-! ### What is read from the state -/

theorem port_withBounds (a b c p : Nat) (s : State) : (s.withBounds a b c).port p = s.port p := rfl

theorem waitCondition_withBounds (a b c p : Nat) (s : State) (ph : Phase) :
    (s.withBounds a b c).waitCondition p ph = s.waitCondition p ph := by
  cases ph <;> rfl

/-! ### How steps are put together -/

namespace BoundsPass

variable {α β : Type} {put : Nat → Nat → Nat → β → β}

theorem comp {f : State → β} {g : State → State} (hf : BoundsPass put f) (hg : IgnoresBounds g) :
    BoundsPass put (fun s => f (g s)) := fun a b c s => (congrArg f (hg a b c s)).trans (hf a b c (g s))

/-- A step that takes a value read from the state. -/
theorem reading {k : α → State → β} {v : State → α} (hk : ∀ x, BoundsPass put (k x))
    (hv : ∀ a b c s, v (s.withBounds a b c) = v s) : BoundsPass put (fun s => k (v s) s) :=
  fun a b c s => (congrArg (k · _) (hv a b c s)).trans (hk (v s) a b c s)

theorem ite {P : State → Prop} {dec : DecidablePred P} {f g : State → β}
    (hP : ∀ a b c s, P (s.withBounds a b c) ↔ P s) (hf : BoundsPass put f) (hg : BoundsPass put g) :
    BoundsPass put (fun s => if P s then f s else g s) := by
  intro a b c s
  by_cases h : P s
  · simp only [hP, h, if_true, hf a b c s]
  · simp only [hP, h, if_false, hg a b c s]

theorem awaitToken {p : Nat} {k : State → State} (hk : IgnoresBounds k) : IgnoresBounds (awaitToken p k) :=
  ite (fun _ _ _ _ => Iff.rfl) (fun _ _ _ _ => rfl) (hk.comp (g := acquire p) fun _ _ _ _ => rfl)

theorem awaitTxDone {k : State → State} (hk : IgnoresBounds k) : IgnoresBounds (awaitTxDone k) :=
  ite (fun _ _ _ _ => Iff.rfl) (hk.comp (g := fun s => { s with txDone := false }) fun _ _ _ _ => rfl)
    (fun _ _ _ _ => rfl)

theorem awaitByte {k : Byte → State → State} (hk : ∀ x, IgnoresBounds (k x)) : IgnoresBounds (awaitByte k) := by
  intro a b c s
  rcases awaitByte_cases k s with ⟨hq, h⟩ | ⟨x, rest, hq, h⟩
  · have hq' : (s.withBounds a b c).q = [] := hq
    rw [h, Machine.awaitByte, hq']
  · have hq' : (s.withBounds a b c).q = x :: rest := hq
    rw [h, ← hk, Machine.awaitByte, hq']
    rfl

end BoundsPass

/-! ### The shared operations -/

theorem release_ignoresBounds (p : Nat) : IgnoresBounds (release p) :=
  .ite (fun _ _ _ _ => Iff.rfl) (fun _ _ _ _ => rfl) (fun _ _ _ _ => rfl)

theorem push_ignoresBounds (x : Byte) : IgnoresBounds (push x) :=
  .ite (fun _ _ _ _ => Iff.rfl) (fun _ _ _ _ => rfl) (fun _ _ _ _ => rfl)

theorem cleanup_ignoresBounds (k : Cleanup) (p : Nat) : IgnoresBounds (cleanup k p) := by
  have hdrain : IgnoresBounds (fun s => if k.drains then drain s else s) :=
    .ite (fun _ _ _ _ => Iff.rfl) (fun _ _ _ _ => rfl) (fun _ _ _ _ => rfl)
  have hrelease : IgnoresBounds (fun s => if k.releases then release p s else s) :=
    .ite (fun _ _ _ _ => Iff.rfl) (release_ignoresBounds p) (fun _ _ _ _ => rfl)
  obtain ⟨drains, releases, mode⟩ := k
  cases mode with
  | none => exact hrelease.comp hdrain
  | some m =>
    have hmode : IgnoresBounds (fun s => { s with dlMode := m }) := fun _ _ _ _ => rfl
    exact hmode.comp (hrelease.comp hdrain)

theorem terminate_ignoresBounds (i : Instr) (p : Nat) (code : ResultCode) (app : Byte) (len : Nat) :
    IgnoresBounds (terminate i p code app len) :=
  BoundsPass.comp (f := complete p code app len) (fun _ _ _ _ => rfl) (cleanup_ignoresBounds _ p)

theorem raiseFail_ignoresBounds (i : Instr) (p : Nat) (code : ResultCode) : IgnoresBounds (raiseFail i p code) :=
  terminate_ignoresBounds i p code 0x00#8 0

/-- A terminal step whose report and OUT_BUF bytes are read from the state. -/
theorem terminate_writeOut_ignoresBounds (i : Instr) (p : Nat) (code : ResultCode) (app : State → Byte)
    (len : State → Nat) (out : State → List Byte) (happ : ∀ a b c s, app (s.withBounds a b c) = app s)
    (hlen : ∀ a b c s, len (s.withBounds a b c) = len s) (hout : ∀ a b c s, out (s.withBounds a b c) = out s) :
    IgnoresBounds (fun s => terminate i p code (app s) (len s) (s.writeOut p (out s))) :=
  .reading (k := fun x s => terminate i p code x (len s) (s.writeOut p (out s)))
    (fun x => .reading (k := fun n s => terminate i p code x n (s.writeOut p (out s)))
      (fun n => .reading (k := fun bs s => terminate i p code x n (s.writeOut p bs))
        (fun bs => (terminate_ignoresBounds i p code x n).comp (g := fun s => s.writeOut p bs) fun _ _ _ _ => rfl)
        hout) hlen) happ

theorem timeoutStep_ignoresBounds (i : Instr) (p : Nat) : IgnoresBounds (timeoutStep i p) := by
  refine .ite (fun a b c s => ?_) ?_ (fun _ _ _ _ => rfl)
  · rw [waitCondition_withBounds, port_withBounds]
  · exact .reading (k := fun code => raiseFail i p code) (v := fun s => timeoutCode (s.port p).phase)
      (raiseFail_ignoresBounds i p) (fun _ _ _ _ => rfl)

/-! ### Issue -/

theorem issueBuffered_ignoresBounds (i : Instr) (ph : Phase) (p : Nat) : IgnoresBounds (issueBuffered i ph p) :=
  .ite (fun _ _ _ _ => Iff.rfl) (raiseFail_ignoresBounds i p _) (fun _ _ _ _ => rfl)

theorem issueInSession_ignoresBounds (i : Instr) (ph : Phase) (p : Nat) : IgnoresBounds (issueInSession i ph p) :=
  .ite (fun _ _ _ _ => Iff.rfl) (fun _ _ _ _ => rfl) (raiseFail_ignoresBounds i p _)

theorem issueDlRecv_ignoresBounds (p : Nat) : IgnoresBounds (issueDlRecv p) :=
  .ite (fun _ _ _ _ => Iff.rfl) (fun _ _ _ _ => rfl) (raiseFail_ignoresBounds .dlRecv p _)

theorem issueOf_ignoresBounds (i : Instr) (p : Nat) : IgnoresBounds (issueOf i p) := by
  cases i with
  | stuff => exact issueBuffered_ignoresBounds _ _ p
  | destuff => exact issueBuffered_ignoresBounds _ _ p
  | cmdReply => exact issueBuffered_ignoresBounds _ _ p
  | cmdNoreply => exact issueBuffered_ignoresBounds _ _ p
  | tlmReq => exact fun _ _ _ _ => rfl
  | dlEnter => exact fun _ _ _ _ => rfl
  | dlRecv => exact issueDlRecv_ignoresBounds p
  | dlExit => exact issueInSession_ignoresBounds _ _ p

/-! ### Engine steps -/

theorem codecExec_ignoresBounds (i : Instr) (out : List Byte) (p : Nat) : IgnoresBounds (codecExec i out p) :=
  .ite (fun _ _ _ _ => Iff.rfl) (raiseFail_ignoresBounds i p _)
    ((terminate_ignoresBounds i p _ _ _).comp (g := fun s => s.writeOut p out) fun _ _ _ _ => rfl)

theorem openSession_ignoresBounds (p : Nat) : IgnoresBounds (openSession p) :=
  (terminate_ignoresBounds .dlEnter p _ _ _).comp (g := fun s => { s with dlType := s.idOperand p })
    fun _ _ _ _ => rfl

theorem buildCommand_ignoresBounds (i : Instr) (p : Nat) : IgnoresBounds (buildCommand i p) :=
  .ite (fun _ _ _ _ => Iff.rfl) (raiseFail_ignoresBounds i p _) (fun _ _ _ _ => rfl)

theorem buildTelemetry_ignoresBounds (p : Nat) : IgnoresBounds (buildTelemetry p) :=
  .ite (fun _ _ _ _ => Iff.rfl) (raiseFail_ignoresBounds .tlmReq p _) (fun _ _ _ _ => rfl)

theorem rxReplyByte_ignoresBounds (p : Nat) (x : Byte) : IgnoresBounds (rxReplyByte p x) :=
  BoundsPass.comp (g := storeReplyByte p x)
    (.ite (P := fun t => (t.port p).r = t.cfg.replyLen) (g := id) (fun _ _ _ _ => Iff.rfl)
      (terminate_writeOut_ignoresBounds .cmdReply p .ok (fun t => t.rxbByte p STATUS_IDX) (fun t => t.cfg.replyLen)
        (fun t => slice (t.rxbByte p) 0 t.cfg.replyLen) (fun _ _ _ _ => rfl) (fun _ _ _ _ => rfl) (fun _ _ _ _ => rfl))
      (fun _ _ _ _ => rfl))
    (fun _ _ _ _ => rfl)

theorem finishTelemetry_ignoresBounds (p : Nat) : IgnoresBounds (finishTelemetry p) :=
  terminate_writeOut_ignoresBounds .tlmReq p .ok (fun _ => 0x00#8) _
    (fun s => (destuff (slice (s.rxbByte p) s.cfg.tlmHdrLen ((s.port p).r - 2))).take (s.lenOperand p))
    (fun _ _ _ _ => rfl) (fun _ _ _ _ => rfl) (fun _ _ _ _ => rfl)

theorem rxTlmByte_ignoresBounds (p : Nat) (x : Byte) : IgnoresBounds (rxTlmByte p x) :=
  .ite (P := fun s => (scanByte s.cfg.eom (s.port p).tidx x).1 = true) (fun _ _ _ _ => Iff.rfl)
    ((finishTelemetry_ignoresBounds p).comp fun _ _ _ _ => rfl) (fun _ _ _ _ => rfl)

theorem rxTlmStep_ignoresBounds (p : Nat) : IgnoresBounds (rxTlmStep p) :=
  .ite (fun _ _ _ _ => Iff.rfl) (raiseFail_ignoresBounds .tlmReq p _) (.awaitByte (rxTlmByte_ignoresBounds p))

theorem seekStartByte_ignoresBounds (p : Nat) (x : Byte) : IgnoresBounds (seekStartByte p x) :=
  BoundsPass.comp (f := fun t => if t.markerSeen p then beginFrame p t else t) (g := shiftWindow p x)
    (.ite (fun _ _ _ _ => Iff.rfl) (fun _ _ _ _ => rfl) (fun _ _ _ _ => rfl)) (fun _ _ _ _ => rfl)

theorem accumByte_ignoresBounds (p : Nat) (x : Byte) : IgnoresBounds (accumByte p x) :=
  BoundsPass.comp (f := fun t => if (t.port p).n = 3 + t.cfg.minLen then t.toPhase p .dlSeekEnd else t)
    (g := storeFrameByte p x)
    (.ite (fun _ _ _ _ => Iff.rfl) (fun _ _ _ _ => rfl) (fun _ _ _ _ => rfl)) (fun _ _ _ _ => rfl)

theorem finishPacket_ignoresBounds (p : Nat) : IgnoresBounds (finishPacket p) :=
  .reading (v := fun s => (destuff (slice (s.fbByte p) 3 ((s.port p).n - 2)), s.cfg.dlDataLen))
    (k := fun x s => terminate .dlRecv p .ok 0x00#8 ((x.1.drop 2).take x.2).length
      ((s.writeOut p ((x.1.drop 2).take x.2)).updPort p (fun y => { y with seq := seqOf x.1 })))
    (fun _ => (terminate_ignoresBounds .dlRecv p _ _ _).comp fun _ _ _ _ => rfl) (fun _ _ _ _ => rfl)

theorem seekEndByte_ignoresBounds (p : Nat) (x : Byte) : IgnoresBounds (seekEndByte p x) :=
  BoundsPass.comp (g := storeFrameByte p x)
    (f := fun t => if t.fbByte p ((t.port p).n - 2) = ESC ∧ t.fbByte p ((t.port p).n - 1) = t.cfg.dlEnd
      then finishPacket p t else t)
    (.ite (fun _ _ _ _ => Iff.rfl) (finishPacket_ignoresBounds p) (fun _ _ _ _ => rfl)) (fun _ _ _ _ => rfl)

theorem seekEndStep_ignoresBounds (p : Nat) : IgnoresBounds (seekEndStep p) :=
  .ite (fun _ _ _ _ => Iff.rfl) (raiseFail_ignoresBounds .dlRecv p _) (.awaitByte (seekEndByte_ignoresBounds p))

theorem stuffEngine_ignoresBounds (p : Nat) : IgnoresBounds (stuffEngine p) := by
  intro a b c s
  unfold stuffEngine
  rw [port_withBounds]
  split
  · exact codecExec_ignoresBounds .stuff _ p a b c s
  · rfl

theorem destuffEngine_ignoresBounds (p : Nat) : IgnoresBounds (destuffEngine p) := by
  intro a b c s
  unfold destuffEngine
  rw [port_withBounds]
  split
  · exact codecExec_ignoresBounds .destuff _ p a b c s
  · rfl

theorem cmdReplyEngine_ignoresBounds (p : Nat) : IgnoresBounds (cmdReplyEngine p) := by
  intro a b c s
  unfold cmdReplyEngine
  rw [port_withBounds]
  split
  · exact BoundsPass.awaitToken (p := p) (k := fun t => t.toPhase p .build) (fun _ _ _ _ => rfl) a b c s
  · exact buildCommand_ignoresBounds .cmdReply p a b c s
  · exact BoundsPass.awaitTxDone (k := enterRxReply p) (fun _ _ _ _ => rfl) a b c s
  · exact BoundsPass.awaitByte (rxReplyByte_ignoresBounds p) a b c s
  · rfl

theorem cmdNoreplyEngine_ignoresBounds (p : Nat) : IgnoresBounds (cmdNoreplyEngine p) := by
  intro a b c s
  unfold cmdNoreplyEngine
  rw [port_withBounds]
  split
  · exact buildCommand_ignoresBounds .cmdNoreply p a b c s
  · exact BoundsPass.awaitTxDone (terminate_ignoresBounds .cmdNoreply p .ok 0x00#8 0) a b c s
  · rfl

theorem tlmReqEngine_ignoresBounds (p : Nat) : IgnoresBounds (tlmReqEngine p) := by
  intro a b c s
  unfold tlmReqEngine
  rw [port_withBounds]
  split
  · exact BoundsPass.awaitToken (p := p) (k := fun t => t.toPhase p .build) (fun _ _ _ _ => rfl) a b c s
  · exact buildTelemetry_ignoresBounds p a b c s
  · exact BoundsPass.awaitTxDone (k := enterRxTlm p) (fun _ _ _ _ => rfl) a b c s
  · exact rxTlmStep_ignoresBounds p a b c s
  · rfl

theorem dlEnterEngine_ignoresBounds (p : Nat) : IgnoresBounds (dlEnterEngine p) := by
  intro a b c s
  unfold dlEnterEngine
  rw [port_withBounds]
  split
  · exact BoundsPass.awaitToken (openSession_ignoresBounds p) a b c s
  · rfl

theorem dlRecvEngine_ignoresBounds (p : Nat) : IgnoresBounds (dlRecvEngine p) := by
  intro a b c s
  unfold dlRecvEngine
  rw [port_withBounds]
  split
  · exact BoundsPass.awaitByte (seekStartByte_ignoresBounds p) a b c s
  · exact BoundsPass.awaitByte (accumByte_ignoresBounds p) a b c s
  · exact seekEndStep_ignoresBounds p a b c s
  · rfl

theorem dlExitEngine_ignoresBounds (p : Nat) : IgnoresBounds (dlExitEngine p) := by
  intro a b c s
  unfold dlExitEngine
  rw [port_withBounds]
  split
  · exact terminate_ignoresBounds .dlExit p .ok 0x00#8 0 a b c s
  · rfl

theorem engineOf_ignoresBounds (i : Instr) (p : Nat) : IgnoresBounds (engineOf i p) := by
  cases i with
  | stuff => exact stuffEngine_ignoresBounds p
  | destuff => exact destuffEngine_ignoresBounds p
  | cmdReply => exact cmdReplyEngine_ignoresBounds p
  | cmdNoreply => exact cmdNoreplyEngine_ignoresBounds p
  | tlmReq => exact tlmReqEngine_ignoresBounds p
  | dlEnter => exact dlEnterEngine_ignoresBounds p
  | dlRecv => exact dlRecvEngine_ignoresBounds p
  | dlExit => exact dlExitEngine_ignoresBounds p

theorem actOf_ignoresBounds (i : Instr) (act : Act) (p : Nat) : IgnoresBounds (actOf i act p) := by
  cases act with
  | issue => exact issueOf_ignoresBounds i p
  | engine => exact engineOf_ignoresBounds i p
  | timeout => exact timeoutStep_ignoresBounds i p

/-! ### The agents' steps -/

/-- A step that always answers a next state. -/
theorem IgnoresBounds.next {f : State → State} (hf : IgnoresBounds f) : OutcomeIgnoresBounds (fun s => .next (f s)) :=
  fun a b c s => congrArg Host.Outcome.next (hf a b c s)

theorem writeCmdBuf_ignoresBounds (p i : Nat) (n : Width) (v : Word) : IgnoresBounds (writeCmdBuf p i n v) :=
  fun _ _ _ _ => rfl

theorem writeWindow_ignoresBounds (p o : Nat) (n : Width) (v : Word) : IgnoresBounds (writeWindow p o n v) := by
  have whileIdle : ∀ f : State → State, IgnoresBounds f →
      IgnoresBounds (fun s => if s.busy p then ignoreWrite p s else f s) :=
    fun f hf => .ite (fun _ _ _ _ => Iff.rfl) (fun _ _ _ _ => rfl) hf
  refine .ite (fun _ _ _ _ => Iff.rfl) (whileIdle (writeArg p v) fun _ _ _ _ => rfl) ?_
  refine .ite (fun _ _ _ _ => Iff.rfl) (fun _ _ _ _ => rfl) ?_
  refine .ite (fun _ _ _ _ => Iff.rfl) (fun _ _ _ _ => rfl) ?_
  exact .ite (fun _ _ _ _ => Iff.rfl) (whileIdle _ (writeCmdBuf_ignoresBounds p (o - 0x400) n v))
    (fun _ _ _ _ => rfl)

theorem hostRead_ignoresBounds (x : Nat) (n : Width) : IgnoresBounds (hostRead x n) :=
  .ite (fun _ _ _ _ => Iff.rfl) (fun _ _ _ _ => rfl) (fun _ _ _ _ => rfl)

theorem exec_select_ignoresBounds (i : Instr) (p : Nat) (act : Act) :
    OutcomeIgnoresBounds (fun s => exec i (s.select p act)) := by
  intro a b c s
  simp only [exec_select, mapNext]
  exact congrArg Host.Outcome.next (actOf_ignoresBounds i act p a b c (s.select p act))

theorem issue_ignoresBounds (p : Nat) (w : Word) : OutcomeIgnoresBounds (issue p w) := by
  intro a b c s
  unfold issue
  split
  · exact exec_select_ignoresBounds _ p .issue a b c s
  · rfl

theorem hostWrite_ignoresBounds (x : Nat) (n : Width) (v : Word) : OutcomeIgnoresBounds (hostWrite x n v) := by
  refine .ite (fun _ _ _ _ => Iff.rfl) (fun _ _ _ _ => rfl) ?_
  refine .ite (fun _ _ _ _ => Iff.rfl) ?_ ?_
  · exact .ite (fun _ _ _ _ => Iff.rfl) (fun _ _ _ _ => rfl)
      ((issue_ignoresBounds (x / 0x1000) v).comp (g := fun s => { s with resp := .written }) fun _ _ _ _ => rfl)
  · exact (IgnoresBounds.next (writeWindow_ignoresBounds (x / 0x1000) (x % 0x1000) n v)).comp
      (g := fun s => { s with resp := .written }) fun _ _ _ _ => rfl

theorem operationStep_ignoresBounds (act : Act) (p : Nat) : OutcomeIgnoresBounds (operationStep act p) := by
  refine .ite (fun _ _ _ _ => Iff.rfl) (fun a b c s => ?_) (fun _ _ _ _ => rfl)
  rw [port_withBounds]
  split
  · exact exec_select_ignoresBounds _ p act a b c s
  · rfl

theorem perform_ignoresBounds (e : Event) : OutcomeIgnoresBounds (perform e) := by
  cases e with
  | hostRead x n => exact (hostRead_ignoresBounds x n).next
  | hostWrite x n v => exact hostWrite_ignoresBounds x n v
  | engine p => exact operationStep_ignoresBounds .engine p
  | rxPush x => exact (push_ignoresBounds x).next
  | txComplete => exact .ite (fun _ _ _ _ => Iff.rfl) (fun _ _ _ _ => rfl) (fun _ _ _ _ => rfl)
  | timeout p => exact operationStep_ignoresBounds .timeout p
  | reset => exact fun _ _ _ _ => rfl

theorem performLegal_ignoresBounds (e : Event) : OutcomeIgnoresBounds (performLegal e) :=
  .ite (fun _ _ _ _ => Iff.rfl) (perform_ignoresBounds e) (fun _ _ _ _ => rfl)

theorem step_ignoresBounds : OutcomeIgnoresBounds step := by
  intro a b c s
  have hsched : (s.withBounds a b c).sched = s.sched := rfl
  unfold step nextStep
  rw [hsched]
  split
  next e rest _ => exact performLegal_ignoresBounds e a b c { s with sched := rest }
  next => exact performLegal_ignoresBounds (Config.environment s.tick) a b c { s with tick := s.tick + 1 }

/-- Settles O53: a step commutes with changing the bounds, whatever it answers. -/
theorem timeoutBoundsAreNeverRead : Obligations.TimeoutBoundsAreNeverRead := by
  intro s a b c put
  have hput : step (put s) = mapNext (State.withBounds a b c) (step s) := step_ignoresBounds a b c s
  refine ⟨fun t ht => ?_, fun r hr => ?_⟩
  · rw [hput, ht]; rfl
  · rw [hput, hr]; rfl

end Sys2Proof.Machine
end

/-! ## The invariant taken apart: a port at rest, an operation in progress, and the rest of the block -/

section
namespace Sys2Proof.Machine

/-! ### Work buffers -/

/-- A work buffer in canonical form, inside its size. -/
def Memory.Within (m : Memory) (cap : Nat) : Prop := m.wf ∧ ∀ c ∈ m, c.1 < cap

/-- The first k bytes of a work buffer are written. -/
def Memory.Filled (m : Memory) (k : Nat) : Prop := ∀ j, j < k → (m.read j).isSome = true

theorem Memory.within_nil (cap : Nat) : Memory.Within [] cap := ⟨List.Pairwise.nil, by simp⟩

theorem Memory.Within.write {m : Memory} {cap k : Nat} (h : m.Within cap) (hk : k < cap) (b : Byte) :
    (m.write k b).Within cap := by
  obtain ⟨hwf, hcap⟩ := h
  refine ⟨Memory.write_wf k b hwf, fun c hc => ?_⟩
  rcases Memory.mem_write hc with rfl | hc
  · exact hk
  · exact hcap c hc

theorem Memory.Within.writeBytes {m : Memory} {cap a : Nat} {bs : List Byte} (h : m.Within cap)
    (ha : a + bs.length ≤ cap) : (m.writeBytes a bs).Within cap := by
  obtain ⟨hwf, hcap⟩ := h
  refine ⟨Memory.writeBytes_wf a bs hwf, fun c hc => ?_⟩
  rcases Memory.mem_writeBytes hc with ⟨_, hlt⟩ | hc
  · omega
  · exact hcap c hc

theorem Memory.filled_zero (m : Memory) : m.Filled 0 := fun _ h => absurd h (Nat.not_lt_zero _)

theorem Memory.Filled.write {m : Memory} {k : Nat} (h : m.Filled k) (b : Byte) : (m.write k b).Filled (k + 1) := by
  intro j hj
  by_cases hjk : j = k
  · rw [hjk, Memory.read_write_same]; rfl
  · rw [Memory.read_write_ne _ _ hjk]; exact h j (by omega)

theorem Memory.filled_writeBytes (m : Memory) (bs : List Byte) : (m.writeBytes 0 bs).Filled bs.length := by
  intro j hj
  have hread := Memory.read_writeBytes_inside m 0 j bs hj
  rw [Nat.zero_add] at hread
  rw [hread]; rfl

/-! ### One port -/

/-- RESULT keeps its fields' rules (R26, R102). -/
structure ResultSound (c : Config) (r : Result) : Prop where
  length_le : r.length.toNat ≤ c.outCap
  error_empty : r.code ≠ .ok → r.app = 0x00#8 ∧ r.length = 0#16

/-- What the registers of a port keep in every phase, IDLE included (R21, R24, R26). -/
structure PortAtRest (c : Config) (x : Port) : Prop where
  r_le : x.r ≤ c.rxbCap
  n_le : x.n ≤ c.maxLen
  wcnt_le : x.wcnt ≤ 3
  rxb_within : x.rxb.Within c.rxbCap
  fb_within : x.fb.Within c.maxLen
  w_within : x.w.Within 3
  arg_top : x.arg.extractLsb' 24 8 = 0#8
  result : ResultSound c x.result

/-- What the receive phases have counted and stored so far (R21, R88, R92, R96 to R98). -/
def PhaseData (c : Config) (x : Port) : Prop :=
  match x.phase with
  | .rxReply => x.r < c.replyLen ∧ x.rxb.Filled x.r
  | .rxTlm => x.rxb.Filled x.r
  | .dlSeekStart => ∀ k, k < 3 → 3 ≤ k + x.wcnt → (x.w.read k).isSome = true
  | .dlAccum => 3 ≤ x.n ∧ x.n < 3 + c.minLen ∧ x.fb.Filled x.n
  | .dlSeekEnd => 3 + c.minLen ≤ x.n ∧ x.fb.Filled x.n
  | _ => True

/-- LEN of the operands that a port's ARG gives (R53). -/
def Port.len (x : Port) : Nat := (x.arg.extractLsb' 0 16).toNat

theorem lenOperand_eq (s : State) (p : Nat) : s.lenOperand p = (s.port p).len := rfl

/-- The registers x, on port p of s, are those of operation i in progress (R19, R20, R65, R69, R92, R105). -/
structure InProgress (s : State) (p : Nat) (i : Instr) (x : Port) : Prop where
  op_eq : x.op = opcodeOf i
  phase_mem : x.phase ∈ phasesOf i
  token : holdsTokenIn i x.phase = true → s.token = { held := true, owner := p } ∧ s.dlMode = inSession i
  buffered : readsCmdBuf i = true → x.len ≤ s.cfg.cmdCap
  telemetry : i = .tlmReq → x.phase = .txWait ∨ x.phase = .rxTlm → x.len ≤ s.cfg.outCap
  data : PhaseData s.cfg x

/-- The data of a receive phase, phase by phase as the invariant states them. -/
theorem phaseData_iff (c : Config) (x : Port) : PhaseData c x ↔
    ((x.phase = .rxReply → x.r < c.replyLen) ∧ (x.phase = .dlAccum → 3 ≤ x.n ∧ x.n < 3 + c.minLen) ∧
      (x.phase = .dlSeekEnd → 3 + c.minLen ≤ x.n)) ∧
    (x.phase = .rxReply ∨ x.phase = .rxTlm → x.rxb.Filled x.r) ∧
    (x.phase = .dlAccum ∨ x.phase = .dlSeekEnd → x.fb.Filled x.n) ∧
    (x.phase = .dlSeekStart → ∀ k, k < 3 → 3 ≤ k + x.wcnt → (x.w.read k).isSome = true) := by
  unfold PhaseData
  cases x.phase <;> simp [and_assoc]

theorem inProgress_iff (s : State) (p : Nat) (i : Instr) : InProgress s p i (s.port p) ↔
    (s.port p).op = opcodeOf i ∧ OperationSound s p i ∧ PhaseData s.cfg (s.port p) :=
  ⟨fun h => ⟨h.op_eq, ⟨h.phase_mem, h.token, h.buffered, h.telemetry⟩, h.data⟩,
    fun ⟨hop, ⟨hphase, htoken, hbuf, htlm⟩, hdata⟩ => ⟨hop, hphase, htoken, hbuf, htlm, hdata⟩⟩

/-- A port is sound exactly when its registers are, and it is IDLE or runs an operation. -/
theorem portSound_iff (s : State) (p : Nat) : PortSound s p ↔
    PortAtRest s.cfg (s.port p) ∧ ((s.port p).phase = .idle ∨ ∃ i, InProgress s p i (s.port p)) := by
  simp only [inProgress_iff]
  constructor
  · rintro ⟨hop, ⟨hr, hn, hw, hcounts⟩, ⟨hrxb, hfb, hwin, hrxb', hfb', hwin', hfilled⟩, harg, hlen, herr⟩
    have hdata : PhaseData s.cfg (s.port p) := by
      rw [phaseData_iff]
      simpa only [List.mem_range, Memory.Filled] using And.intro hcounts hfilled
    refine ⟨⟨hr, hn, hw, ⟨hrxb, hrxb'⟩, ⟨hfb, hfb'⟩, ⟨hwin, hwin'⟩, harg, hlen, herr⟩, ?_⟩
    exact hop.imp id fun ⟨i, _, hop, hi⟩ => ⟨i, hop, hi, hdata⟩
  · rintro ⟨hrest, hop⟩
    have hdata : PhaseData s.cfg (s.port p) := by
      rcases hop with hidle | ⟨i, _, _, hdata⟩
      · simp [phaseData_iff, hidle]
      · exact hdata
    obtain ⟨hcounts, hfilled⟩ := (phaseData_iff _ _).mp hdata
    refine ⟨hop.imp id fun ⟨i, hop, hi, _⟩ => ⟨i, mem_all i, hop, hi⟩,
      ⟨hrest.r_le, hrest.n_le, hrest.wcnt_le, hcounts⟩, ?_, hrest.arg_top, hrest.result.1, hrest.result.2⟩
    refine ⟨hrest.rxb_within.1, hrest.fb_within.1, hrest.w_within.1, hrest.rxb_within.2, hrest.fb_within.2,
      hrest.w_within.2, ?_⟩
    simpa only [List.mem_range, Memory.Filled] using hfilled

/-- A port keeps its soundness where its registers do, and the token and the session while it holds them. -/
theorem PortSound.congr {s t : State} {p : Nat} (h : PortSound s p) (hport : t.port p = s.port p)
    (hcfg : t.cfg = s.cfg)
    (htoken : s.token = { held := true, owner := p } → t.token = s.token ∧ t.dlMode = s.dlMode) : PortSound t p := by
  rw [portSound_iff] at h ⊢
  obtain ⟨hrest, hop⟩ := h
  rw [hport, hcfg]
  refine ⟨hrest, hop.imp id fun ⟨i, hi⟩ => ⟨i, hi.op_eq, hi.phase_mem, fun hholds => ?_, ?_, ?_, ?_⟩⟩
  · obtain ⟨htok, hmode⟩ := hi.token hholds
    obtain ⟨htok', hmode'⟩ := htoken htok
    exact ⟨htok'.trans htok, hmode'.trans hmode⟩
  · exact hcfg ▸ hi.buffered
  · exact hcfg ▸ hi.telemetry
  · exact hcfg ▸ hi.data

/-! ### The shared state -/

/-- The part of the invariant about the token and the session (R18, R19). -/
structure SessionSound (c : Config) (token : Token) (dlMode : Bool) : Prop where
  owner_free : token.held = false → token.owner = 0
  owner_lt : token.held = true → token.owner < c.nPorts
  session_held : dlMode = true → token.held = true

theorem sharedSound_iff (s : State) : SharedSound s ↔
    s.q.length ≤ s.cfg.qDepth ∧ SessionSound s.cfg s.token s.dlMode ∧ s.mem.wf ∧
    (∀ c ∈ s.mem, isBufferAddress s.cfg c.1) ∧ ∀ f ∈ s.txLog, f.length ≤ s.cfg.txCap :=
  ⟨fun ⟨hq, hfree, howner, hheld, hrest⟩ => ⟨hq, ⟨hfree, howner, hheld⟩, hrest⟩,
    fun ⟨hq, ⟨hfree, howner, hheld⟩, hrest⟩ => ⟨hq, hfree, howner, hheld, hrest⟩⟩

theorem sessionSound_free (c : Config) : SessionSound c Token.free false :=
  ⟨fun _ => rfl, fun h => absurd h (by decide), fun h => absurd h (by decide)⟩

theorem sessionSound_held {c : Config} {p : Nat} (hp : p < c.nPorts) (mode : Bool) :
    SessionSound c { held := true, owner := p } mode :=
  ⟨fun h => absurd h (by simp), fun _ => hp, fun _ => rfl⟩

/-- A free token means no session (R19). -/
theorem SharedSound.dlMode_of_free {s : State} (h : SharedSound s) (hfree : s.token.held = false) :
    s.dlMode = false := by
  obtain ⟨_, hsession, _⟩ := (sharedSound_iff s).mp h
  cases hmode : s.dlMode
  · rfl
  · rw [hsession.session_held hmode] at hfree; cases hfree

theorem SharedSound.withQueue {s : State} (h : SharedSound s) {q : List Byte} (hq : q.length ≤ s.cfg.qDepth) :
    SharedSound { s with q := q } := ⟨hq, h.2⟩

theorem SharedSound.withSession {s : State} (h : SharedSound s) {token : Token} {mode : Bool}
    (hs : SessionSound s.cfg token mode) : SharedSound { s with token := token, dlMode := mode } := by
  obtain ⟨hq, _, hmem⟩ := (sharedSound_iff s).mp h
  exact (sharedSound_iff _).mpr ⟨hq, hs, hmem⟩

theorem SharedSound.handoff {s : State} (h : SharedSound s) {f : List Byte} (hf : f.length ≤ s.cfg.txCap) :
    SharedSound (handoff f s) := by
  obtain ⟨hq, hsession, hwf, haddr, hlog⟩ := (sharedSound_iff s).mp h
  refine (sharedSound_iff _).mpr ⟨hq, hsession, hwf, haddr, fun g hg => ?_⟩
  rcases List.mem_append.mp hg with hg | hg
  · exact hlog g hg
  · rw [List.mem_singleton.mp hg]; exact hf

/-- Bytes stored at buffer addresses only. -/
theorem SharedSound.writeBytes {s : State} (h : SharedSound s) {a : Nat} {bs : List Byte}
    (ha : ∀ x, a ≤ x → x < a + bs.length → isBufferAddress s.cfg x) :
    SharedSound { s with mem := s.mem.writeBytes a bs } := by
  obtain ⟨hq, hsession, hwf, haddr, hlog⟩ := (sharedSound_iff s).mp h
  refine (sharedSound_iff _).mpr ⟨hq, hsession, Memory.writeBytes_wf _ _ hwf, fun c hc => ?_, hlog⟩
  rcases Memory.mem_writeBytes hc with ⟨hge, hlt⟩ | hc
  · exact ha c.1 hge hlt
  · exact haddr c hc

/-- The addresses of a port's CMD_BUF (R31, R38). -/
theorem isBufferAddress_cmdBuf {c : Config} (hc : c.legal = true) {p i x : Nat} (hp : p < c.nPorts)
    (hge : cmdBufAddr p i ≤ x) (hlt : x < cmdBufAddr p 0 + c.cmdCap) : isBufferAddress c x := by
  obtain ⟨_, _, _, _, _, _, _, _, ⟨_, hcap⟩, _⟩ := (legal_iff c).mp hc
  simp only [cmdBufAddr] at hge hlt
  unfold isBufferAddress
  omega

/-- The addresses of a port's OUT_BUF (R32, R38). -/
theorem isBufferAddress_outBuf {c : Config} (hc : c.legal = true) {p x : Nat} (hp : p < c.nPorts)
    (hge : outBufAddr p 0 ≤ x) (hlt : x < outBufAddr p 0 + c.outCap) : isBufferAddress c x := by
  obtain ⟨_, _, _, _, _, _, _, _, _, ⟨_, hcap⟩, _⟩ := (legal_iff c).mp hc
  simp only [outBufAddr] at hge hlt
  unfold isBufferAddress
  omega

/-! ### Everything but the operation of one port -/

/-- The invariant but for the operation in progress on the existing port p. Each operation on p keeps this part at every
point of its steps. -/
structure SoundApart (p : Nat) (s : State) : Prop where
  legal : s.cfg.legal = true
  ports_length : s.ports.length = s.cfg.nPorts
  lt : p < s.cfg.nPorts
  shared : SharedSound s
  rest : PortAtRest s.cfg (s.port p)
  others : ∀ p', p' < s.cfg.nPorts → p' ≠ p → PortSound s p'

theorem sound_iff_apart {s : State} {p : Nat} (hp : p < s.cfg.nPorts) : Sound s ↔
    SoundApart p s ∧ ((s.port p).phase = .idle ∨ ∃ i, InProgress s p i (s.port p)) := by
  constructor
  · rintro ⟨hlegal, hlen, hshared, hports⟩
    simp only [List.mem_range] at hports
    obtain ⟨hrest, hop⟩ := (portSound_iff s p).mp (hports p hp)
    exact ⟨⟨hlegal, hlen, hp, hshared, hrest, fun p' hp' _ => hports p' hp'⟩, hop⟩
  · rintro ⟨h, hop⟩
    refine ⟨h.legal, h.ports_length, h.shared, fun p' hp' => ?_⟩
    by_cases hpp : p' = p
    · subst hpp; exact (portSound_iff s p').mpr ⟨h.rest, hop⟩
    · exact h.others p' (List.mem_range.mp hp') hpp

theorem Sound.apart {s : State} {p : Nat} (h : Sound s) (hp : p < s.cfg.nPorts) : SoundApart p s :=
  ((sound_iff_apart hp).mp h).1

theorem SoundApart.sound_of_idle {s : State} {p : Nat} (h : SoundApart p s) (hidle : (s.port p).phase = .idle) :
    Sound s := (sound_iff_apart h.lt).mpr ⟨h, .inl hidle⟩

theorem SoundApart.sound_of_inProgress {s : State} {p : Nat} {i : Instr} (h : SoundApart p s)
    (hi : InProgress s p i (s.port p)) : Sound s := (sound_iff_apart h.lt).mpr ⟨h, .inr ⟨i, hi⟩⟩

theorem SoundApart.lt_length {s : State} {p : Nat} (h : SoundApart p s) : p < s.ports.length :=
  h.ports_length.symm ▸ h.lt

/-- What a change of the state must keep for everything but the operation of p to stay sound. -/
theorem SoundApart.congr {s t : State} {p : Nat} (h : SoundApart p s) (hcfg : t.cfg = s.cfg)
    (hlen : t.ports.length = s.ports.length) (hports : ∀ p', p' ≠ p → t.port p' = s.port p')
    (htoken : ∀ p', p' ≠ p → s.token = { held := true, owner := p' } → t.token = s.token ∧ t.dlMode = s.dlMode)
    (hshared : SharedSound t) (hrest : PortAtRest s.cfg (t.port p)) : SoundApart p t where
  legal := hcfg ▸ h.legal
  ports_length := by rw [hlen, hcfg, h.ports_length]
  lt := hcfg ▸ h.lt
  shared := hshared
  rest := hcfg ▸ hrest
  others p' hp' hne := (h.others p' (hcfg ▸ hp') hne).congr (hports p' hne) hcfg (htoken p' hne)

/-- A change of the shared state that leaves the ports, the token and the session. -/
theorem SoundApart.withShared {s t : State} {p : Nat} (h : SoundApart p s) (hshared : SharedSound t)
    (hcfg : t.cfg = s.cfg) (hports : t.ports = s.ports) (htoken : t.token = s.token) (hmode : t.dlMode = s.dlMode) :
    SoundApart p t := by
  have hport : ∀ p', t.port p' = s.port p' := fun p' => by rw [State.port, hports, State.port]
  exact h.congr hcfg (by rw [hports]) (fun p' _ => hport p') (fun _ _ _ => ⟨htoken, hmode⟩) hshared
    ((hport p).symm ▸ h.rest)

/-- Port p takes or gives up the token, or opens or closes its session, while no other port holds the token. -/
theorem SoundApart.withSession {s : State} {p : Nat} (h : SoundApart p s) {token : Token} {mode : Bool}
    (hs : SessionSound s.cfg token mode) (hfree : ∀ p', p' ≠ p → s.token ≠ { held := true, owner := p' }) :
    SoundApart p { s with token := token, dlMode := mode } :=
  h.congr rfl rfl (fun _ _ => rfl) (fun p' hne htok => absurd htok (hfree p' hne)) (h.shared.withSession hs) h.rest

/-- New registers of port p. -/
theorem SoundApart.updPort {s : State} {p : Nat} (h : SoundApart p s) {f : Port → Port}
    (hrest : PortAtRest s.cfg (f (s.port p))) : SoundApart p (s.updPort p f) := by
  have hport : (s.updPort p f).port p = f (s.port p) := port_updPort_same f h.lt_length
  exact h.congr rfl (updPort_ports_length s p f) (fun p' hne => port_updPort_ne f hne) (fun _ _ _ => ⟨rfl, rfl⟩)
    h.shared (hport.symm ▸ hrest)

/-- New registers of port p with which an operation is in progress. -/
theorem SoundApart.sound_updPort {s : State} {p : Nat} {i : Instr} (h : SoundApart p s) {f : Port → Port}
    (hrest : PortAtRest s.cfg (f (s.port p))) (hi : InProgress s p i (f (s.port p))) : Sound (s.updPort p f) := by
  have hport : (s.updPort p f).port p = f (s.port p) := port_updPort_same f h.lt_length
  refine (h.updPort hrest).sound_of_inProgress (i := i) ?_
  rw [hport]
  exact { hi with }

end Sys2Proof.Machine
end

/-! ## What each operation keeps of the invariant -/

section
namespace Sys2Proof.Machine

/-! ### The shared operations -/

namespace SoundApart

variable {p : Nat} {s : State}

theorem drain (h : SoundApart p s) : SoundApart p (drain s) :=
  h.withShared (h.shared.withQueue (Nat.zero_le _)) rfl rfl rfl rfl

theorem pop (h : SoundApart p s) {b : Byte} {rest : List Byte} (hq : s.q = b :: rest) :
    SoundApart p { s with q := rest } := by
  have hlen : s.q.length ≤ s.cfg.qDepth := h.shared.1
  rw [hq, List.length_cons] at hlen
  exact h.withShared (h.shared.withQueue (by omega)) rfl rfl rfl rfl

theorem handoff (h : SoundApart p s) {f : List Byte} (hf : f.length ≤ s.cfg.txCap) : SoundApart p (handoff f s) :=
  h.withShared (h.shared.handoff hf) rfl rfl rfl rfl

theorem writeOut (h : SoundApart p s) {bs : List Byte} (hbs : bs.length ≤ s.cfg.outCap) :
    SoundApart p (s.writeOut p bs) :=
  h.withShared (h.shared.writeBytes fun _ hge hlt => isBufferAddress_outBuf h.legal h.lt hge (by omega)) rfl rfl rfl rfl

theorem consumeTxDone (h : SoundApart p s) : SoundApart p { s with txDone := false } :=
  h.withShared h.shared rfl rfl rfl rfl

theorem acquire (h : SoundApart p s) (hfree : s.token.held = false) : SoundApart p (acquire p s) :=
  h.withSession (sessionSound_held h.lt s.dlMode) fun p' _ htok => by rw [htok] at hfree; cases hfree

theorem storeReplyByte (h : SoundApart p s) (b : Byte) (hr : (s.port p).r < s.cfg.rxbCap) :
    SoundApart p (storeReplyByte p b s) :=
  h.updPort { h.rest with r_le := hr, rxb_within := h.rest.rxb_within.write hr b }

theorem storeFrameByte (h : SoundApart p s) (b : Byte) (hn : (s.port p).n < s.cfg.maxLen) :
    SoundApart p (storeFrameByte p b s) :=
  h.updPort { h.rest with n_le := hn, fb_within := h.rest.fb_within.write hn b }

theorem shiftWindow (h : SoundApart p s) (b : Byte) : SoundApart p (shiftWindow p b s) :=
  h.updPort { h.rest with
    wcnt_le := Nat.min_le_right _ _
    w_within := ((h.rest.w_within.write (by decide) _).write (by decide) _).write (by decide) b }

/-- A completion leaves p IDLE, whatever was in progress (R67). -/
theorem complete (h : SoundApart p s) {code : ResultCode} {app : Byte} {len : Nat} (hlen : len ≤ s.cfg.outCap)
    (herr : code ≠ .ok → app = 0x00#8 ∧ len = 0) : Sound (complete p code app len s) := by
  have hres : ResultSound s.cfg { code := code, app := app, length := BitVec.ofNat 16 len } := by
    refine ⟨?_, fun hcode => ?_⟩
    · exact Nat.le_trans (by rw [BitVec.toNat_ofNat]; exact Nat.mod_le _ _) hlen
    · obtain ⟨happ, hzero⟩ := herr hcode
      exact ⟨happ, by rw [hzero]⟩
  refine (h.updPort (f := fun x => { x with result := _, phase := .idle, done := true })
    { h.rest with result := hres }).sound_of_idle ?_
  rw [port_updPort_same _ h.lt_length]

end SoundApart

/-! ### The cleanup of R104 -/

/-- What a terminal step of operation i on port p needs: its row of R104 does nothing, or p holds the token and a session
is open exactly for the session commands. -/
def MayClean (s : State) (p : Nat) (i : Instr) (code : ResultCode) : Prop :=
  cleanupOf i code = Cleanup.nothing ∨ (s.token = { held := true, owner := p } ∧ s.dlMode = inSession i)

/-- The rows of R104: nothing, drain and release outside a session, opening a session, closing one. -/
theorem cleanupOf_cases (i : Instr) (code : ResultCode) :
    cleanupOf i code = Cleanup.nothing ∨ (inSession i = false ∧ cleanupOf i code = Cleanup.drainAndRelease) ∨
    cleanupOf i code = { drains := false, releases := false, dlMode := some true } ∨
    cleanupOf i code = { drains := true, releases := true, dlMode := some false } := by
  cases i <;> cases code <;> decide

theorem SoundApart.cleanup {p : Nat} {s : State} (h : SoundApart p s) {i : Instr} {code : ResultCode}
    (hmay : MayClean s p i code) : SoundApart p (cleanup (cleanupOf i code) p s) := by
  rcases hmay with hnothing | ⟨htoken, hmode⟩
  · rw [hnothing]; exact h
  have hfree : ∀ p', p' ≠ p → (Machine.drain s).token ≠ { held := true, owner := p' } := by
    intro p' hne htok
    rw [drain_token, htoken] at htok
    injection htok with _ hpp
    exact hne hpp.symm
  have hrelease : release p (Machine.drain s) = { Machine.drain s with token := Token.free } := release_of_owner htoken
  rcases cleanupOf_cases i code with hrow | ⟨hout, hrow⟩ | hrow | hrow
  · rw [hrow]; exact h
  · rw [hrow, cleanup_drainAndRelease, hrelease]
    have hclosed : (Machine.drain s).dlMode = false := hmode.trans hout
    exact h.drain.withSession (mode := (Machine.drain s).dlMode) (hclosed.symm ▸ sessionSound_free _) hfree
  · rw [hrow]
    exact h.withSession (token := s.token) (htoken.symm ▸ sessionSound_held h.lt true) hfree
  · rw [hrow]
    have hclose : Machine.cleanup { drains := true, releases := true, dlMode := some false } p s =
        { Machine.drain s with token := Token.free, dlMode := false } := by
      simp only [Machine.cleanup, if_true, hrelease]
    rw [hclose]
    exact h.drain.withSession (sessionSound_free _) hfree

theorem SoundApart.terminate {p : Nat} {s : State} (h : SoundApart p s) {i : Instr} {code : ResultCode} {app : Byte}
    {len : Nat} (hlen : len ≤ s.cfg.outCap) (herr : code ≠ .ok → app = 0x00#8 ∧ len = 0)
    (hmay : MayClean s p i code) : Sound (terminate i p code app len s) :=
  (h.cleanup hmay).complete (by rwa [cleanup_cfg]) herr

theorem SoundApart.raiseFail {p : Nat} {s : State} (h : SoundApart p s) {i : Instr} {code : ResultCode}
    (hmay : MayClean s p i code) : Sound (raiseFail i p code s) :=
  h.terminate (Nat.zero_le _) (fun _ => ⟨rfl, rfl⟩) hmay

/-- A refused issue cleans nothing up. -/
theorem mayClean_badCommand (s : State) (p : Nat) (i : Instr) : MayClean s p i .badCommand := .inl (by cases i <;> rfl)

/-- While an operation holds the token, it may clean up. -/
theorem InProgress.mayClean {s : State} {p : Nat} {i : Instr} {x : Port} (hi : InProgress s p i x)
    (hholds : holdsTokenIn i x.phase = true) (code : ResultCode) : MayClean s p i code := .inr (hi.token hholds)

/-- An error of an operation in progress may clean up: in TOKEN_WAIT it is BUS_BUSY, which cleans nothing up. -/
theorem InProgress.mayClean_error {s : State} {p : Nat} {i : Instr} {x : Port} (hi : InProgress s p i x)
    {code : ResultCode} (hcode : code ≠ .ok) (hwait : x.phase = .tokenWait → code = .busBusy) :
    MayClean s p i code := by
  by_cases hholds : holdsTokenIn i x.phase = true
  · exact hi.mayClean hholds code
  left
  cases i with
  | cmdReply => rw [hwait (by simpa [holdsTokenIn] using hholds)]; rfl
  | tlmReq => rw [hwait (by simpa [holdsTokenIn] using hholds)]; rfl
  | dlRecv => exact absurd rfl hholds
  | dlExit => exact absurd rfl hholds
  | dlEnter =>
    cases code with
    | ok => exact absurd rfl hcode
    | _ => rfl
  | stuff => cases code <;> rfl
  | destuff => cases code <;> rfl
  | cmdNoreply => cases code <;> rfl

/-- A timeout keeps the invariant (R74). -/
theorem timeoutStep_sound {p : Nat} {s : State} {i : Instr} (h : SoundApart p s)
    (hi : InProgress s p i (s.port p)) : Sound (timeoutStep i p s) := by
  rcases timeoutStep_cases i p s with ⟨_, e⟩ | ⟨_, e⟩
  · rw [e]
    refine h.raiseFail (hi.mayClean_error ?_ fun hph => by rw [hph]; rfl)
    cases (s.port p).phase <;> decide
  · rw [e]; exact h.sound_of_inProgress hi

/-! ### Issue -/

/-- An accepted command whose first phase is no receive phase (R65). -/
theorem accept_sound {p : Nat} {s : State} {i : Instr} {first : Phase} (h : SoundApart p s)
    (hfirst : first ∈ phasesOf i) (hkind : first = .exec ∨ first = .tokenWait ∨ first = .build)
    (htoken : holdsTokenIn i first = true → s.token = { held := true, owner := p } ∧ s.dlMode = inSession i)
    (hbuf : readsCmdBuf i = true → s.lenOperand p ≤ s.cfg.cmdCap) : Sound (accept p i first s) := by
  refine h.sound_updPort (i := i) { h.rest with } ⟨rfl, hfirst, htoken, hbuf, fun _ hph => ?_, ?_⟩
  · rcases hkind with rfl | rfl | rfl <;> simp at hph
  · rcases hkind with rfl | rfl | rfl <;> trivial

theorem issueBuffered_sound {p : Nat} {s : State} {i : Instr} {first : Phase} (h : SoundApart p s)
    (hfirst : first ∈ phasesOf i) (hkind : first = .exec ∨ first = .tokenWait ∨ first = .build)
    (hfree : holdsTokenIn i first = false) : Sound (issueBuffered i first p s) := by
  rcases issueBuffered_cases i first p s with ⟨_, e⟩ | ⟨hlen, e⟩
  · rw [e]; exact h.raiseFail (mayClean_badCommand s p i)
  · rw [e]; exact accept_sound h hfirst hkind (fun hh => by rw [hfree] at hh; cases hh) fun _ => hlen

theorem ownsSession_iff (s : State) (p : Nat) :
    s.ownsSession p = true ↔ s.token = { held := true, owner := p } ∧ s.dlMode = true := by
  rw [State.ownsSession, Bool.and_eq_true, owns_iff, and_comm]

theorem issueDlRecv_sound {p : Nat} {s : State} (h : SoundApart p s) : Sound (issueDlRecv p s) := by
  unfold issueDlRecv
  split
  · next hown =>
    have haccept : SoundApart p (accept p .dlRecv .dlSeekStart s) := h.updPort { h.rest with }
    refine haccept.sound_updPort (i := .dlRecv)
      { haccept.rest with wcnt_le := Nat.zero_le _, n_le := Nat.zero_le _ } ?_
    rw [port_accept _ _ h.lt_length]
    refine ⟨rfl, by simp [phasesOf], fun _ => (ownsSession_iff s p).mp hown, by simp [readsCmdBuf], by simp, ?_⟩
    intro k hk hwcnt
    exact absurd hwcnt (by simpa using hk)
  · exact h.raiseFail (mayClean_badCommand s p .dlRecv)

theorem issueDlExit_sound {p : Nat} {s : State} (h : SoundApart p s) : Sound (issueInSession .dlExit .exec p s) := by
  rcases issueInSession_cases .dlExit .exec p s with ⟨hown, e⟩ | ⟨_, e⟩
  · rw [e]
    exact accept_sound h (by decide) (.inl rfl) (fun _ => (ownsSession_iff s p).mp hown) (by simp [readsCmdBuf])
  · rw [e]; exact h.raiseFail (mayClean_badCommand s p .dlExit)

/-- The issue of any command keeps the invariant. -/
theorem issueOf_sound {p : Nat} {s : State} (i : Instr) (h : SoundApart p s) : Sound (issueOf i p s) := by
  cases i with
  | stuff => exact issueBuffered_sound h (by decide) (by decide) (by decide)
  | destuff => exact issueBuffered_sound h (by decide) (by decide) (by decide)
  | cmdReply => exact issueBuffered_sound h (by decide) (by decide) (by decide)
  | cmdNoreply => exact issueBuffered_sound h (by decide) (by decide) (by decide)
  | tlmReq => exact accept_sound h (by decide) (by decide) (by simp [holdsTokenIn]) (by simp [readsCmdBuf])
  | dlEnter => exact accept_sound h (by decide) (by decide) (by simp [holdsTokenIn]) (by simp [readsCmdBuf])
  | dlRecv => exact issueDlRecv_sound h
  | dlExit => exact issueDlExit_sound h

end Sys2Proof.Machine
end

/-! ## Every engine step keeps the invariant (R86 to R99) -/

section
namespace Sys2Proof.Machine

variable {p : Nat} {s : State}

/-! ### STUFF and DESTUFF -/

theorem codecExec_sound {i : Instr} (out : List Byte) (h : SoundApart p s)
    (hrow : ∀ code, cleanupOf i code = Cleanup.nothing) : Sound (codecExec i out p s) := by
  unfold codecExec
  split
  · exact h.raiseFail (.inl (hrow _))
  · next hfits =>
    have hout : out.length ≤ s.cfg.outCap := Nat.le_of_not_lt hfits
    exact (h.writeOut hout).terminate hout (fun hok => absurd rfl hok) (.inl (hrow _))

theorem stuffEngine_sound (h : SoundApart p s) (hi : InProgress s p .stuff (s.port p)) : Sound (stuffEngine p s) := by
  unfold stuffEngine
  split
  · exact codecExec_sound _ h fun code => by cases code <;> rfl
  · exact h.sound_of_inProgress hi

theorem destuffEngine_sound (h : SoundApart p s) (hi : InProgress s p .destuff (s.port p)) :
    Sound (destuffEngine p s) := by
  unfold destuffEngine
  split
  · exact codecExec_sound _ h fun code => by cases code <;> rfl
  · exact h.sound_of_inProgress hi

/-! ### Acquiring the token and building a frame -/

/-- TOKEN_WAIT of the commands that build a frame under the token (R88, R92). -/
theorem awaitToken_build_sound {i : Instr} (h : SoundApart p s) (hi : InProgress s p i (s.port p))
    (hbuild : .build ∈ phasesOf i) (hout : inSession i = false) :
    Sound (awaitToken p (fun t => t.toPhase p .build) s) := by
  rcases awaitToken_cases p (fun t => t.toPhase p .build) s with ⟨_, e⟩ | ⟨hfree, e⟩
  · rw [e]; exact h.sound_of_inProgress hi
  · rw [e]
    have hclosed : s.dlMode = false := h.shared.dlMode_of_free hfree
    exact (h.acquire hfree).sound_updPort (i := i) { h.rest with }
      { hi with
        phase_mem := hbuild
        token := fun _ => ⟨rfl, hclosed.trans hout.symm⟩
        telemetry := fun _ hph => by simp at hph
        data := trivial }

/-- From BUILD to TX_WAIT with a frame within TX_CAP (R88, R89, R92). -/
theorem handoff_sound {i : Instr} {f : List Byte} (h : SoundApart p s) (hi : InProgress s p i (s.port p))
    (hph : (s.port p).phase = .build) (hf : f.length ≤ s.cfg.txCap) (hwait : .txWait ∈ phasesOf i)
    (hlen : i = .tlmReq → s.lenOperand p ≤ s.cfg.outCap) : Sound ((handoff f s).toPhase p .txWait) := by
  have hholds : holdsTokenIn i .txWait = true → holdsTokenIn i (s.port p).phase = true := by
    rw [hph]; cases i <;> simp [holdsTokenIn]
  exact (h.handoff hf).sound_updPort (i := i) { h.rest with }
    { hi with
      phase_mem := hwait
      token := fun hh => hi.token (hholds hh)
      telemetry := fun htlm _ => hlen htlm
      data := trivial }

theorem buildCommand_sound {i : Instr} (h : SoundApart p s) (hi : InProgress s p i (s.port p))
    (hph : (s.port p).phase = .build) (hwait : .txWait ∈ phasesOf i) (hne : i ≠ .tlmReq) :
    Sound (buildCommand i p s) := by
  unfold buildCommand
  dsimp only
  split
  · exact h.raiseFail (hi.mayClean_error (by decide) fun hw => by rw [hph] at hw; cases hw)
  · next hfits => exact handoff_sound h hi hph (Nat.le_of_not_lt hfits) hwait fun htlm => absurd htlm hne

theorem buildTelemetry_sound (h : SoundApart p s) (hi : InProgress s p .tlmReq (s.port p))
    (hph : (s.port p).phase = .build) : Sound (buildTelemetry p s) := by
  have htx : 5 ≤ s.cfg.txCap := by
    obtain ⟨_, _, _, _, _, _, _, htx, _⟩ := (legal_iff s.cfg).mp h.legal
    exact htx
  unfold buildTelemetry
  split
  · exact h.raiseFail (hi.mayClean_error (by decide) fun hw => by rw [hph] at hw; cases hw)
  · next hfits => exact handoff_sound h hi hph htx (by decide) fun _ => Nat.le_of_not_lt hfits

/-! ### CMD_REPLY and CMD_NOREPLY -/

/-- R8 (6): a reply fits RXB and OUT_BUF and is not empty. -/
theorem replyLen_bounds {c : Config} (hc : c.legal = true) :
    0 < c.replyLen ∧ c.replyLen ≤ c.rxbCap ∧ c.replyLen ≤ c.outCap := by
  obtain ⟨_, _, _, _, _, ⟨hpos, hrxb, hout⟩, _⟩ := (legal_iff c).mp hc
  exact ⟨by omega, hrxb, hout⟩

theorem enterRxReply_sound (h : SoundApart p s) (hi : InProgress s p .cmdReply (s.port p))
    (hph : (s.port p).phase = .txWait) : Sound (enterRxReply p s) := by
  obtain ⟨hpos, _⟩ := replyLen_bounds h.legal
  exact h.sound_updPort (i := .cmdReply) { h.rest with r_le := Nat.zero_le _ }
    { hi with
      phase_mem := by simp [phasesOf]
      token := fun _ => hi.token (by rw [hph]; rfl)
      telemetry := fun htlm => by cases htlm
      data := ⟨hpos, Memory.filled_zero _⟩ }

theorem port_storeReplyByte (h : SoundApart p s) (b : Byte) : (storeReplyByte p b s).port p =
    { s.port p with rxb := (s.port p).rxb.write (s.port p).r b, r := (s.port p).r + 1 } :=
  port_updPort_same _ h.lt_length

theorem rxReplyByte_sound (b : Byte) (h : SoundApart p s) (hi : InProgress s p .cmdReply (s.port p))
    (hph : (s.port p).phase = .rxReply) : Sound (rxReplyByte p b s) := by
  obtain ⟨_, hrxb, hout⟩ := replyLen_bounds h.legal
  obtain ⟨hr, hfilled⟩ : (s.port p).r < s.cfg.replyLen ∧ (s.port p).rxb.Filled (s.port p).r := by
    simpa only [PhaseData, hph] using hi.data
  have hstored := h.storeReplyByte b (by omega)
  have htoken := hi.token (by rw [hph]; rfl)
  unfold rxReplyByte
  dsimp only
  split
  · exact (hstored.writeOut (by rw [slice_length]; exact hout)).terminate hout (fun hok => absurd rfl hok)
      (.inr htoken)
  · next hmore =>
    rw [port_storeReplyByte h] at hmore
    refine hstored.sound_of_inProgress (i := .cmdReply) ?_
    rw [port_storeReplyByte h]
    refine { hi with data := ?_ }
    simp only [PhaseData, hph]
    exact ⟨Nat.lt_of_le_of_ne hr hmore, hfilled.write b⟩

theorem cmdReplyEngine_sound (h : SoundApart p s) (hi : InProgress s p .cmdReply (s.port p)) :
    Sound (cmdReplyEngine p s) := by
  unfold cmdReplyEngine
  split
  · exact awaitToken_build_sound h hi (by decide) rfl
  · next hph => exact buildCommand_sound h hi hph (by decide) (by decide)
  · next hph =>
    rcases awaitTxDone_cases (enterRxReply p) s with ⟨_, e⟩ | ⟨_, e⟩
    · rw [e]; exact h.sound_of_inProgress hi
    · rw [e]; exact enterRxReply_sound h.consumeTxDone { hi with } hph
  · next hph =>
    rcases awaitByte_cases (rxReplyByte p) s with ⟨_, e⟩ | ⟨b, rest, hq, e⟩
    · rw [e]; exact h.sound_of_inProgress hi
    · rw [e]; exact rxReplyByte_sound b (h.pop hq) { hi with } hph
  · exact h.sound_of_inProgress hi

theorem cmdNoreplyEngine_sound (h : SoundApart p s) (hi : InProgress s p .cmdNoreply (s.port p)) :
    Sound (cmdNoreplyEngine p s) := by
  unfold cmdNoreplyEngine
  split
  · next hph => exact buildCommand_sound h hi hph (by decide) (by decide)
  · rcases awaitTxDone_cases (terminate .cmdNoreply p .ok 0x00#8 0) s with ⟨_, e⟩ | ⟨_, e⟩
    · rw [e]; exact h.sound_of_inProgress hi
    · rw [e]; exact h.consumeTxDone.terminate (Nat.zero_le _) (fun hok => absurd rfl hok) (.inl rfl)
  · exact h.sound_of_inProgress hi

/-! ### TLM_REQ -/

theorem enterRxTlm_sound (h : SoundApart p s) (hi : InProgress s p .tlmReq (s.port p))
    (hph : (s.port p).phase = .txWait) : Sound (enterRxTlm p s) :=
  h.sound_updPort (i := .tlmReq) { h.rest with r_le := Nat.zero_le _ }
    { hi with
      phase_mem := by simp [phasesOf]
      token := fun _ => hi.token (by rw [hph]; rfl)
      telemetry := fun htlm _ => hi.telemetry htlm (.inl hph)
      data := Memory.filled_zero _ }

/-- The completion of TLM_REQ: the body is cut to an expected_length that BUILD has checked (R92). -/
theorem finishTelemetry_sound (h : SoundApart p s) (hi : InProgress s p .tlmReq (s.port p))
    (hph : (s.port p).phase = .rxTlm) : Sound (finishTelemetry p s) := by
  have hlen : s.lenOperand p ≤ s.cfg.outCap := hi.telemetry rfl (.inr hph)
  have hcut : ∀ bs : List Byte, (bs.take (s.lenOperand p)).length ≤ s.cfg.outCap := fun bs =>
    Nat.le_trans (List.length_take_le _ _) hlen
  exact (h.writeOut (hcut _)).terminate (hcut _) (fun hok => absurd rfl hok) (hi.mayClean (by rw [hph]; rfl) _)

theorem rxTlmByte_sound (b : Byte) (h : SoundApart p s) (hi : InProgress s p .tlmReq (s.port p))
    (hph : (s.port p).phase = .rxTlm) (hroom : (s.port p).r ≠ s.cfg.rxbCap) : Sound (rxTlmByte p b s) := by
  have hfilled : (s.port p).rxb.Filled (s.port p).r := by simpa only [PhaseData, hph] using hi.data
  have hstored := h.storeReplyByte b (Nat.lt_of_le_of_ne h.rest.r_le hroom)
  have hscanned : SoundApart p ((storeReplyByte p b s).updPort p
      (fun x => { x with tidx := (scanByte s.cfg.eom (s.port p).tidx b).2 })) := hstored.updPort { hstored.rest with }
  have hport := port_updPort_same (fun x => { x with tidx := (scanByte s.cfg.eom (s.port p).tidx b).2 })
    hstored.lt_length
  rw [port_storeReplyByte h] at hport
  have hprogress : InProgress s p .tlmReq (((storeReplyByte p b s).updPort p
      (fun x => { x with tidx := (scanByte s.cfg.eom (s.port p).tidx b).2 })).port p) := by
    rw [hport]
    refine { hi with data := ?_ }
    simp only [PhaseData, hph]
    exact hfilled.write b
  unfold rxTlmByte
  dsimp only
  split
  · exact finishTelemetry_sound hscanned { hprogress with } (by rw [hport]; exact hph)
  · exact hscanned.sound_of_inProgress (i := .tlmReq) { hprogress with }

theorem tlmReqEngine_sound (h : SoundApart p s) (hi : InProgress s p .tlmReq (s.port p)) :
    Sound (tlmReqEngine p s) := by
  unfold tlmReqEngine
  split
  · exact awaitToken_build_sound h hi (by decide) rfl
  · next hph => exact buildTelemetry_sound h hi hph
  · next hph =>
    rcases awaitTxDone_cases (enterRxTlm p) s with ⟨_, e⟩ | ⟨_, e⟩
    · rw [e]; exact h.sound_of_inProgress hi
    · rw [e]; exact enterRxTlm_sound h.consumeTxDone { hi with } hph
  · next hph =>
    unfold rxTlmStep
    split
    · exact h.raiseFail (hi.mayClean (by rw [hph]; rfl) _)
    · next hroom =>
      rcases awaitByte_cases (rxTlmByte p) s with ⟨_, e⟩ | ⟨b, rest, hq, e⟩
      · rw [e]; exact h.sound_of_inProgress hi
      · rw [e]; exact rxTlmByte_sound b (h.pop hq) { hi with } hph hroom
  · exact h.sound_of_inProgress hi

/-! ### DL_ENTER and DL_EXIT -/

theorem openSession_sound (h : SoundApart p s) (htoken : s.token = { held := true, owner := p })
    (hclosed : s.dlMode = false) : Sound (openSession p s) := by
  have hnamed : SoundApart p { s with dlType := s.idOperand p } := h.withShared h.shared rfl rfl rfl rfl
  exact hnamed.terminate (Nat.zero_le _) (fun hok => absurd rfl hok) (.inr ⟨htoken, hclosed⟩)

theorem dlEnterEngine_sound (h : SoundApart p s) (hi : InProgress s p .dlEnter (s.port p)) :
    Sound (dlEnterEngine p s) := by
  unfold dlEnterEngine
  split
  · rcases awaitToken_cases p (openSession p) s with ⟨_, e⟩ | ⟨hfree, e⟩
    · rw [e]; exact h.sound_of_inProgress hi
    · rw [e]; exact openSession_sound (h.acquire hfree) rfl (h.shared.dlMode_of_free hfree)
  · exact h.sound_of_inProgress hi

theorem dlExitEngine_sound (h : SoundApart p s) (hi : InProgress s p .dlExit (s.port p)) :
    Sound (dlExitEngine p s) := by
  unfold dlExitEngine
  split
  · exact h.terminate (Nat.zero_le _) (fun hok => absurd rfl hok) (hi.mayClean rfl _)
  · exact h.sound_of_inProgress hi

/-! ### DL_RECV -/

/-- R8 (4): the marker and the unconditional region leave room in FB (R97). -/
theorem frame_bounds {c : Config} (hc : c.legal = true) : 3 + c.minLen < c.maxLen ∧ c.dlDataLen ≤ c.outCap := by
  obtain ⟨_, _, _, hmax, ⟨_, hdata⟩, _⟩ := (legal_iff c).mp hc
  exact ⟨by omega, hdata⟩

theorem port_shiftWindow (h : SoundApart p s) (b : Byte) : (shiftWindow p b s).port p =
    { s.port p with
      w := (((s.port p).w.write 0 (s.windowByte p 1)).write 1 (s.windowByte p 2)).write 2 b
      wcnt := min ((s.port p).wcnt + 1) 3 } :=
  port_updPort_same _ h.lt_length

theorem port_storeFrameByte (h : SoundApart p s) (b : Byte) : (storeFrameByte p b s).port p =
    { s.port p with fb := (s.port p).fb.write (s.port p).n b, n := (s.port p).n + 1 } :=
  port_updPort_same _ h.lt_length

/-- The start marker opens FB (R96). -/
theorem beginFrame_sound (h : SoundApart p s) (hi : InProgress s p .dlRecv (s.port p)) : Sound (beginFrame p s) := by
  obtain ⟨hmax, _⟩ := frame_bounds h.legal
  obtain ⟨_, _, hmin, _⟩ := (legal_iff s.cfg).mp h.legal
  have hroom : 0 + (startMarker s.cfg s.dlType).length ≤ s.cfg.maxLen := by simp only [startMarker, List.length]; omega
  exact h.sound_updPort (i := .dlRecv)
    { h.rest with n_le := by dsimp only; omega, fb_within := h.rest.fb_within.writeBytes hroom }
    { hi with
      phase_mem := by simp [phasesOf]
      token := fun _ => hi.token rfl
      telemetry := fun htlm => by cases htlm
      data := ⟨Nat.le_refl 3, by dsimp only; omega, Memory.filled_writeBytes _ (startMarker s.cfg s.dlType)⟩ }

theorem seekStartByte_sound (b : Byte) (h : SoundApart p s) (hi : InProgress s p .dlRecv (s.port p))
    (hph : (s.port p).phase = .dlSeekStart) : Sound (seekStartByte p b s) := by
  have hshifted := h.shiftWindow b
  have hprogress : InProgress s p .dlRecv ((shiftWindow p b s).port p) := by
    rw [port_shiftWindow h]
    refine { hi with data := ?_ }
    simp only [PhaseData, hph]
    exact fun k hk _ => (((Memory.filled_zero _).write _).write _).write b k hk
  unfold seekStartByte
  dsimp only
  split
  · exact beginFrame_sound hshifted { hprogress with }
  · exact hshifted.sound_of_inProgress (i := .dlRecv) { hprogress with }

theorem accumByte_sound (b : Byte) (h : SoundApart p s) (hi : InProgress s p .dlRecv (s.port p))
    (hph : (s.port p).phase = .dlAccum) : Sound (accumByte p b s) := by
  obtain ⟨hmax, _⟩ := frame_bounds h.legal
  obtain ⟨hge, hlt, hfilled⟩ :
      3 ≤ (s.port p).n ∧ (s.port p).n < 3 + s.cfg.minLen ∧ (s.port p).fb.Filled (s.port p).n := by
    simpa only [PhaseData, hph] using hi.data
  have hstored := h.storeFrameByte b (by omega)
  have hport := port_storeFrameByte h b
  unfold accumByte
  dsimp only
  split
  · next hlast =>
    refine hstored.sound_updPort (i := .dlRecv) { hstored.rest with } ?_
    rw [hport] at hlast ⊢
    exact { hi with
      phase_mem := by simp [phasesOf]
      token := fun _ => hi.token rfl
      telemetry := fun htlm => by cases htlm
      data := ⟨Nat.le_of_eq hlast.symm, hfilled.write b⟩ }
  · next hmore =>
    refine hstored.sound_of_inProgress (i := .dlRecv) ?_
    rw [hport] at hmore ⊢
    refine { hi with data := ?_ }
    simp only [PhaseData, hph]
    exact ⟨Nat.le_succ_of_le hge, Nat.lt_of_le_of_ne hlt hmore, hfilled.write b⟩

/-- The completion of DL_RECV: the data is cut to DL_DATA_LEN, which fits OUT_BUF (R99, R8 (5)). -/
theorem finishPacket_sound (h : SoundApart p s) (hi : InProgress s p .dlRecv (s.port p)) : Sound (finishPacket p s) := by
  obtain ⟨_, hdata⟩ := frame_bounds h.legal
  have hcut : ∀ bs : List Byte, (bs.take s.cfg.dlDataLen).length ≤ s.cfg.outCap := fun bs =>
    Nat.le_trans (List.length_take_le _ _) hdata
  unfold finishPacket
  dsimp only
  generalize destuff (slice (s.fbByte p) 3 ((s.port p).n - 2)) = thin
  have hwritten := h.writeOut (hcut (thin.drop 2))
  have hcounted := hwritten.updPort (f := fun x => { x with seq := seqOf thin }) { hwritten.rest with }
  exact hcounted.terminate (hcut _) (fun hok => absurd rfl hok) (hi.mayClean rfl _)

theorem seekEndByte_sound (b : Byte) (h : SoundApart p s) (hi : InProgress s p .dlRecv (s.port p))
    (hph : (s.port p).phase = .dlSeekEnd) (hroom : (s.port p).n ≠ s.cfg.maxLen) : Sound (seekEndByte p b s) := by
  obtain ⟨hge, hfilled⟩ : 3 + s.cfg.minLen ≤ (s.port p).n ∧ (s.port p).fb.Filled (s.port p).n := by
    simpa only [PhaseData, hph] using hi.data
  have hstored := h.storeFrameByte b (Nat.lt_of_le_of_ne h.rest.n_le hroom)
  have hprogress : InProgress s p .dlRecv ((storeFrameByte p b s).port p) := by
    rw [port_storeFrameByte h]
    refine { hi with data := ?_ }
    simp only [PhaseData, hph]
    exact ⟨Nat.le_succ_of_le hge, hfilled.write b⟩
  unfold seekEndByte
  dsimp only
  split
  · exact finishPacket_sound hstored { hprogress with }
  · exact hstored.sound_of_inProgress (i := .dlRecv) { hprogress with }

theorem dlRecvEngine_sound (h : SoundApart p s) (hi : InProgress s p .dlRecv (s.port p)) :
    Sound (dlRecvEngine p s) := by
  unfold dlRecvEngine
  split
  · next hph =>
    rcases awaitByte_cases (seekStartByte p) s with ⟨_, e⟩ | ⟨b, rest, hq, e⟩
    · rw [e]; exact h.sound_of_inProgress hi
    · rw [e]; exact seekStartByte_sound b (h.pop hq) { hi with } hph
  · next hph =>
    rcases awaitByte_cases (accumByte p) s with ⟨_, e⟩ | ⟨b, rest, hq, e⟩
    · rw [e]; exact h.sound_of_inProgress hi
    · rw [e]; exact accumByte_sound b (h.pop hq) { hi with } hph
  · next hph =>
    unfold seekEndStep
    split
    · exact h.raiseFail (.inl rfl)
    · next hroom =>
      rcases awaitByte_cases (seekEndByte p) s with ⟨_, e⟩ | ⟨b, rest, hq, e⟩
      · rw [e]; exact h.sound_of_inProgress hi
      · rw [e]; exact seekEndByte_sound b (h.pop hq) { hi with } hph hroom
  · exact h.sound_of_inProgress hi

/-- The engine step of any command keeps the invariant. -/
theorem engineOf_sound {i : Instr} (h : SoundApart p s) (hi : InProgress s p i (s.port p)) :
    Sound (engineOf i p s) := by
  cases i with
  | stuff => exact stuffEngine_sound h hi
  | destuff => exact destuffEngine_sound h hi
  | cmdReply => exact cmdReplyEngine_sound h hi
  | cmdNoreply => exact cmdNoreplyEngine_sound h hi
  | tlmReq => exact tlmReqEngine_sound h hi
  | dlEnter => exact dlEnterEngine_sound h hi
  | dlRecv => exact dlRecvEngine_sound h hi
  | dlExit => exact dlExitEngine_sound h hi

end Sys2Proof.Machine
end

/-! ## Every step of every agent keeps the invariant -/

section
namespace Sys2Proof.Machine

/-! ### Changes that the invariant does not speak of -/

theorem sound_select_iff (s : State) (p : Nat) (act : Act) : Sound (s.select p act) ↔ Sound s := Iff.rfl

theorem sound_resp_iff (s : State) (r : Response) : Sound { s with resp := r } ↔ Sound s := Iff.rfl

theorem sound_of_next {o : Host.Outcome State Fault Refusal} {t u : State} (hu : Sound u) (ho : o = .next u)
    (ht : o = .next t) : Sound t := by
  cases ho.symm.trans ht
  exact hu

theorem afterDraw_sound {s : State} (h : Sound s) : Sound (afterDraw s) := by
  rcases afterDraw_cases s with ⟨_, _, _, e⟩ | ⟨_, e⟩ <;> rw [e] <;> exact h

/-- A change of the shared state alone. -/
theorem Sound.withShared {s t : State} (h : Sound s) (hshared : SharedSound t) (hcfg : t.cfg = s.cfg)
    (hports : t.ports = s.ports) (htoken : t.token = s.token) (hmode : t.dlMode = s.dlMode) : Sound t := by
  obtain ⟨hlegal, hlen, _, hall⟩ := h
  refine ⟨hcfg ▸ hlegal, by rw [hports, hcfg, hlen], hshared, fun p hp => ?_⟩
  have hport : t.port p = s.port p := by rw [State.port, hports, State.port]
  exact (hall p (hcfg ▸ hp)).congr hport hcfg fun _ => ⟨htoken, hmode⟩

/-! ### Operations -/

/-- A busy port of a sound state runs the operation that its OP decodes to. -/
theorem Sound.inProgress_of_busy {s : State} {p : Nat} (h : Sound s) (hbusy : s.busy p = true) :
    ∃ i, decodeOpcode (s.port p).op = some i ∧ SoundApart p s ∧ InProgress s p i (s.port p) := by
  have hp : p < s.cfg.nPorts := h.2.1 ▸ lt_length_of_busy hbusy
  obtain ⟨hapart, hidle | ⟨i, hi⟩⟩ := (sound_iff_apart hp).mp h
  · simp [State.busy, hidle] at hbusy
  · exact ⟨i, by rw [hi.op_eq, decodeOpcode_opcodeOf], hapart, hi⟩

theorem operationStep_sound {s t : State} {p : Nat} {act : Act} (h : Sound s) (hact : act ≠ .issue)
    (ht : operationStep act p s = .next t) : Sound t := by
  rcases operationStep_cases act p s with ⟨i, hbusy, hop, e⟩ | ⟨_, e⟩
  · obtain ⟨j, hop', hapart, hi⟩ := h.inProgress_of_busy hbusy
    obtain rfl : i = j := Option.some.inj (hop.symm.trans hop')
    have hselected : SoundApart p (s.select p act) := hapart.withShared hapart.shared rfl rfl rfl rfl
    refine sound_of_next ?_ e ht
    cases act with
    | issue => exact absurd rfl hact
    | engine => exact engineOf_sound hselected { hi with }
    | timeout => exact timeoutStep_sound hselected { hi with }
  · exact sound_of_next h e ht

/-! ### Host accesses -/

theorem hostRead_sound {s : State} (h : Sound s) (a : Nat) (n : Width) : Sound (hostRead a n s) := by
  unfold hostRead
  split
  · exact (sound_resp_iff s _).mpr h
  · exact (sound_resp_iff s _).mpr h

/-- A legal access is in the window of a port that exists (R37, R41). -/
theorem port_lt_of_legalAccess {c : Config} {a : Nat} {n : Width} (h : illegalAccess c a n = false) :
    a / 0x1000 < c.nPorts := by
  simp only [illegalAccess, Bool.or_eq_false_iff, decide_eq_false_iff_not] at h
  obtain ⟨hin, _⟩ := h
  omega

/-- New values of registers of port p that no operation in progress depends on. -/
theorem Sound.updPort {s : State} {p : Nat} (h : Sound s) (hp : p < s.cfg.nPorts) {f : Port → Port}
    (hrest : PortAtRest s.cfg (s.port p) → PortAtRest s.cfg (f (s.port p)))
    (hphase : (f (s.port p)).phase = (s.port p).phase)
    (hop : ∀ i, InProgress s p i (s.port p) → InProgress s p i (f (s.port p))) : Sound (s.updPort p f) := by
  obtain ⟨hapart, hidle | ⟨i, hi⟩⟩ := (sound_iff_apart hp).mp h
  · refine (hapart.updPort (hrest hapart.rest)).sound_of_idle ?_
    rw [port_updPort_same f hapart.lt_length, hphase, hidle]
  · exact hapart.sound_updPort (hrest hapart.rest) (hop i hi)

theorem ignoreWrite_sound {s : State} {p : Nat} (h : Sound s) (hp : p < s.cfg.nPorts) : Sound (ignoreWrite p s) :=
  h.updPort hp (fun hrest => { hrest with }) rfl fun _ hi => { hi with }

theorem writeStatus_sound {s : State} {p : Nat} (h : Sound s) (hp : p < s.cfg.nPorts) (v : Word) :
    Sound (writeStatus p v s) :=
  h.updPort hp (fun hrest => { hrest with }) rfl fun _ hi => { hi with }

/-- ARG changes only while the port is IDLE, when no operation depends on it (R24). -/
theorem writeArg_sound {s : State} {p : Nat} (h : Sound s) (hp : p < s.cfg.nPorts) (hidle : s.busy p = false)
    (v : Word) : Sound (writeArg p v s) := by
  have hapart := h.apart hp
  refine (hapart.updPort { hapart.rest with arg_top := BitVec.extractLsb'_append_eq_left }).sound_of_idle ?_
  rw [port_updPort_same _ hapart.lt_length]
  simpa [State.busy] using hidle

theorem cmdBufAddr_eq (p i : Nat) : cmdBufAddr p i = cmdBufAddr p 0 + i := by simp [cmdBufAddr]

theorem writeCmdBuf_sound {s : State} {p : Nat} (h : Sound s) (hp : p < s.cfg.nPorts) (i : Nat) (n : Width)
    (v : Word) : Sound (writeCmdBuf p i n v s) := by
  obtain ⟨hlegal, _, hshared, _⟩ := id h
  have hlen : (((List.range n.bytes).map (byteLane v)).take (s.cfg.cmdCap - i)).length ≤ s.cfg.cmdCap - i :=
    List.length_take_le _ _
  have hin : ∀ x, cmdBufAddr p i ≤ x → x < cmdBufAddr p i + (s.cfg.cmdCap - i) →
      isBufferAddress s.cfg x := fun x hge hlt =>
    isBufferAddress_cmdBuf hlegal hp hge (by rw [cmdBufAddr_eq] at hge hlt; omega)
  refine h.withShared (t := writeCmdBuf p i n v s) (hshared.writeBytes fun x hge hlt => hin x hge ?_) rfl rfl rfl rfl
  exact Nat.lt_of_lt_of_le hlt (Nat.add_le_add_left hlen _)

theorem writeWindow_sound {s : State} {p : Nat} (h : Sound s) (hp : p < s.cfg.nPorts) (o : Nat) (n : Width) (v : Word) :
    Sound (writeWindow p o n v s) := by
  unfold writeWindow
  split
  · split
    · exact ignoreWrite_sound h hp
    · next hidle => exact writeArg_sound h hp (Bool.eq_false_of_not_eq_true hidle) v
  split
  · exact writeStatus_sound h hp v
  split
  · exact h
  split
  · split
    · exact ignoreWrite_sound h hp
    · exact writeCmdBuf_sound h hp _ n v
  · exact h

theorem issue_sound {s t : State} {p : Nat} {w : Word} (h : Sound s) (hp : p < s.cfg.nPorts)
    (ht : issue p w s = .next t) : Sound t := by
  have hapart := h.apart hp
  rcases issue_cases p w s with ⟨i, _, e⟩ | ⟨_, _, e⟩
  · exact sound_of_next (issueOf_sound i (Sound.apart ((sound_select_iff s p .issue).mpr h) hp)) e ht
  · exact sound_of_next (hapart.complete (Nat.zero_le _) fun _ => ⟨rfl, rfl⟩) e ht

theorem hostWrite_sound {s t : State} {a : Nat} {n : Width} {v : Word} (h : Sound s)
    (ht : hostWrite a n v s = .next t) : Sound t := by
  have hanswered : Sound { s with resp := .written } := (sound_resp_iff s _).mpr h
  rcases hostWrite_cases a n v s with ⟨_, e⟩ | ⟨hlegal, _, _, e⟩ | ⟨hlegal, _, _, e⟩ | ⟨hlegal, _, e⟩
  · exact sound_of_next ((sound_resp_iff s _).mpr h) e ht
  · exact sound_of_next (ignoreWrite_sound hanswered (port_lt_of_legalAccess hlegal)) e ht
  · exact issue_sound hanswered (port_lt_of_legalAccess hlegal) (e.symm.trans ht)
  · exact sound_of_next (writeWindow_sound hanswered (port_lt_of_legalAccess hlegal) _ n v) e ht

/-! ### The RX producer, the TX sink and reset -/

/-- A push keeps Q within Q_DEPTH (R68). -/
theorem push_sound {s : State} (h : Sound s) (b : Byte) : Sound (push b s) := by
  obtain ⟨_, _, hshared, _⟩ := id h
  rcases push_cases b s with ⟨hroom, e⟩ | ⟨_, e⟩
  · rw [e]
    exact h.withShared (hshared.withQueue (by simpa using hroom)) rfl rfl rfl rfl
  · rw [e]; exact h

theorem txCompletion_sound {s : State} (h : Sound s) : Sound (txCompletion s) := h

theorem portAtRest_reset (c : Config) : PortAtRest c Port.reset where
  r_le := Nat.zero_le _
  n_le := Nat.zero_le _
  wcnt_le := Nat.zero_le _
  rxb_within := Memory.within_nil _
  fb_within := Memory.within_nil _
  w_within := Memory.within_nil _
  arg_top := by decide
  result := ⟨Nat.zero_le _, fun _ => ⟨rfl, rfl⟩⟩

/-- Every port of a block right after a reset has the reset registers, also one that does not exist. -/
theorem port_replicate_reset {s : State} {k : Nat} (h : s.ports = List.replicate k Port.reset) (p : Nat) :
    s.port p = Port.reset := by
  rw [State.port, h, List.getD_eq_getElem?_getD, List.getElem?_replicate]
  split <;> rfl

/-- Ports as reset leaves them, a free token, and what the wire has seen within TX_CAP (R36, R114). -/
theorem sound_of_reset_values {s : State} (hlegal : s.cfg.legal = true)
    (hports : s.ports = List.replicate s.cfg.nPorts Port.reset) (hmem : s.mem = []) (htoken : s.token = Token.free)
    (hq : s.q = []) (hmode : s.dlMode = false) (hlog : ∀ f ∈ s.txLog, f.length ≤ s.cfg.txCap) : Sound s := by
  refine ⟨hlegal, by rw [hports, List.length_replicate], (sharedSound_iff s).mpr ⟨?_, ?_, ?_, ?_, hlog⟩, fun p _ => ?_⟩
  · rw [hq]; exact Nat.zero_le _
  · rw [htoken, hmode]; exact sessionSound_free _
  · rw [hmem]; exact List.Pairwise.nil
  · rw [hmem]; exact fun _ hc => absurd hc List.not_mem_nil
  · rw [portSound_iff, port_replicate_reset hports]
    exact ⟨portAtRest_reset _, .inl rfl⟩

theorem resetBlock_sound {s : State} (h : Sound s) : Sound (resetBlock s) := by
  obtain ⟨hlegal, _, hshared, _⟩ := h
  obtain ⟨_, _, _, _, hlog⟩ := (sharedSound_iff s).mp hshared
  exact sound_of_reset_values hlegal rfl rfl rfl rfl rfl hlog

/-! ### The step -/

theorem perform_sound {s t : State} {e : Event} (h : Sound s) (ht : perform e s = .next t) : Sound t := by
  cases e with
  | hostRead a n => exact sound_of_next (hostRead_sound h a n) rfl ht
  | hostWrite a n v => exact hostWrite_sound h ht
  | engine p => exact operationStep_sound h (by decide) ht
  | rxPush b => exact sound_of_next (push_sound h b) rfl ht
  | txComplete =>
    simp only [perform] at ht
    split at ht
    · cases ht
    · exact sound_of_next (txCompletion_sound h) rfl ht
  | timeout p => exact operationStep_sound h (by decide) ht
  | reset => exact sound_of_next (resetBlock_sound h) rfl ht

/-- Settles O44: a step is one agent's step, and each agent's step keeps everything but the operation of its own port
(`SoundApart`), and leaves that port IDLE or with its operation in progress (`InProgress`). -/
theorem everyStepKeepsSoundness : Obligations.EveryStepKeepsSoundness := by
  intro s t h ht
  rcases step_cases s with ⟨_, e⟩ | ⟨_, e⟩
  · exact perform_sound (afterDraw_sound h) (e.symm.trans ht)
  · rw [e] at ht; cases ht

end Sys2Proof.Machine
end

/-! ## What a legal host access answers (R23 to R32, R37 to R43) -/

section
namespace Sys2Proof.Machine

/-! ### Fields of a word laid out from its parts -/

theorem getLsbD_append_low {n m i : Nat} {x : BitVec n} {y : BitVec m} (h : i < m) :
    (x ++ y).getLsbD i = y.getLsbD i := by rw [BitVec.getLsbD_append, if_pos h]

theorem getLsbD_append_high {n m i : Nat} {x : BitVec n} {y : BitVec m} (h : m ≤ i) :
    (x ++ y).getLsbD i = x.getLsbD (i - m) := by rw [BitVec.getLsbD_append, if_neg (Nat.not_lt.mpr h)]

/-- The RSM codes of R25. -/
theorem rsm_eq (ph : Phase) : ph.rsm =
    if ph = .dlSeekStart then 1#2 else if ph = .dlAccum then 2#2 else if ph = .dlSeekEnd then 3#2 else 0#2 := by
  cases ph <;> rfl

/-- The bits of STATUS (R25). -/
theorem statusWord_bits (s : State) (p : Nat) :
    (s.statusWord p).getLsbD 0 = s.busy p ∧ (s.statusWord p).getLsbD 1 = (s.port p).done ∧
    (s.statusWord p).getLsbD 2 = (s.port p).wrIgn ∧ (s.statusWord p).getLsbD 3 = false := by
  unfold State.statusWord
  refine ⟨?_, ?_, ?_, ?_⟩
  · rw [getLsbD_append_low (by decide)]; simp
  · rw [getLsbD_append_high (by decide), getLsbD_append_low (by decide)]; simp
  · rw [getLsbD_append_high (by decide), getLsbD_append_high (by decide), getLsbD_append_low (by decide)]; simp
  · rw [getLsbD_append_high (by decide), getLsbD_append_high (by decide), getLsbD_append_high (by decide),
      getLsbD_append_low (by decide)]
    decide

/-- STATUS.RSM, and the reserved bits above it (R25). -/
theorem statusWord_fields (s : State) (p : Nat) :
    (s.statusWord p).extractLsb' 4 2 = (s.port p).phase.rsm ∧ (s.statusWord p).extractLsb' 6 26 = 0#26 := by
  unfold State.statusWord
  constructor
  · iterate 4 rw [BitVec.extractLsb'_append_eq_of_le (by decide)]
    exact BitVec.extractLsb'_append_eq_right
  · iterate 4 rw [BitVec.extractLsb'_append_eq_of_le (by decide)]
    exact BitVec.extractLsb'_append_eq_left

/-- CODE, APP_STATUS and LENGTH (R26). -/
theorem resultWord_fields (s : State) (p : Nat) :
    (s.resultWord p).extractLsb' 0 8 = (s.port p).result.code.byte ∧
    (s.resultWord p).extractLsb' 8 8 = (s.port p).result.app ∧
    (s.resultWord p).extractLsb' 16 16 = (s.port p).result.length := by
  unfold State.resultWord
  refine ⟨BitVec.extractLsb'_append_eq_right, ?_, ?_⟩
  · rw [BitVec.extractLsb'_append_eq_of_le (by decide)]
    exact BitVec.extractLsb'_append_eq_right
  · rw [BitVec.extractLsb'_append_eq_of_le (by decide)]
    exact BitVec.extractLsb'_append_eq_left

/-- SEQ over 0 (R27). -/
theorem seqWord_fields (s : State) (p : Nat) :
    (s.seqWord p).extractLsb' 0 16 = (s.port p).seq ∧ (s.seqWord p).extractLsb' 16 16 = 0#16 :=
  ⟨BitVec.extractLsb'_append_eq_right, BitVec.extractLsb'_append_eq_left⟩

/-- The flags of GSTATUS (R28). -/
theorem gstatusWord_bits (s : State) :
    s.gstatusWord.getLsbD 0 = s.token.held ∧ s.gstatusWord.getLsbD 1 = s.dlMode ∧
    s.gstatusWord.getLsbD 2 = s.txDone ∧ s.gstatusWord.getLsbD 3 = s.rxOvf := by
  unfold State.gstatusWord
  refine ⟨?_, ?_, ?_, ?_⟩
  · rw [getLsbD_append_low (by decide)]; simp
  · rw [getLsbD_append_high (by decide), getLsbD_append_low (by decide)]; simp
  · rw [getLsbD_append_high (by decide), getLsbD_append_high (by decide), getLsbD_append_low (by decide)]; simp
  · rw [getLsbD_append_high (by decide), getLsbD_append_high (by decide), getLsbD_append_high (by decide),
      getLsbD_append_low (by decide)]
    simp

/-- The fields of GSTATUS (R28). -/
theorem gstatusWord_fields (s : State) :
    s.gstatusWord.extractLsb' 4 4 = 0#4 ∧
    s.gstatusWord.extractLsb' 8 8 = BitVec.ofNat 8 (if s.token.held then s.token.owner else 0) ∧
    s.gstatusWord.extractLsb' 16 16 = BitVec.ofNat 16 s.q.length := by
  unfold State.gstatusWord
  refine ⟨?_, ?_, ?_⟩
  · iterate 4 rw [BitVec.extractLsb'_append_eq_of_le (by decide)]
    exact BitVec.extractLsb'_append_eq_right
  · iterate 5 rw [BitVec.extractLsb'_append_eq_of_le (by decide)]
    exact BitVec.extractLsb'_append_eq_right
  · iterate 5 rw [BitVec.extractLsb'_append_eq_of_le (by decide)]
    exact BitVec.extractLsb'_append_eq_left

/-- In a sound state TOKEN_OWNER holds the owner, 0 while free, and QCOUNT the length of Q (R8, R18). -/
theorem gstatusWord_counts {s : State} (h : Sound s) :
    (s.gstatusWord.extractLsb' 8 8).toNat = s.token.owner ∧ (s.gstatusWord.extractLsb' 16 16).toNat = s.q.length := by
  obtain ⟨hlegal, _, hshared, _⟩ := h
  obtain ⟨hq, hsession, _⟩ := (sharedSound_iff s).mp hshared
  obtain ⟨_, _, _, _, _, _, _, _, _, _, ⟨_, hdepth⟩, ⟨_, hports⟩, _⟩ := (legal_iff s.cfg).mp hlegal
  obtain ⟨_, howner, hcount⟩ := gstatusWord_fields s
  have hnum : (if s.token.held then s.token.owner else 0) = s.token.owner ∧ s.token.owner < 256 := by
    cases hheld : s.token.held
    · simp [hsession.owner_free hheld]
    · have := hsession.owner_lt hheld
      exact ⟨rfl, by omega⟩
  rw [howner, hcount, BitVec.toNat_ofNat, BitVec.toNat_ofNat, hnum.1]
  exact ⟨Nat.mod_eq_of_lt hnum.2, Nat.mod_eq_of_lt (by omega)⟩

/-- G.DL_TYPE under 0 (R29). -/
theorem dltypeWord_fields (s : State) :
    s.dltypeWord.extractLsb' 0 8 = s.dlType ∧ s.dltypeWord.extractLsb' 8 24 = 0#24 :=
  ⟨BitVec.extractLsb'_append_eq_right, BitVec.extractLsb'_append_eq_left⟩

/-- Lane k of a word laid out from four bytes (R39 (a)). -/
theorem lane_wordOfBytes (b0 b1 b2 b3 : Byte) {k : Nat} (hk : k < 4) :
    (wordOfBytes b0 b1 b2 b3).extractLsb' (8 * k) 8 = [b0, b1, b2, b3][k] := by
  unfold wordOfBytes
  match k, hk with
  | 0, _ => exact BitVec.extractLsb'_append_eq_right
  | 1, _ =>
    rw [BitVec.extractLsb'_append_eq_of_le (by decide)]
    exact BitVec.extractLsb'_append_eq_right
  | 2, _ =>
    iterate 2 rw [BitVec.extractLsb'_append_eq_of_le (by decide)]
    exact BitVec.extractLsb'_append_eq_right
  | 3, _ =>
    iterate 2 rw [BitVec.extractLsb'_append_eq_of_le (by decide)]
    exact BitVec.extractLsb'_append_eq_left

/-- A value read from a window has its bytes in their lanes, and 0 past the width (R39 (a), R40). -/
theorem lane_windowValue (f : Nat → Byte) (n : Width) {k : Nat} (hk : k < 4) :
    (windowValue f n).extractLsb' (8 * k) 8 = if k < n.bytes then f k else 0x00#8 := by
  cases n <;> simp only [windowValue, lane_wordOfBytes _ _ _ _ hk, Width.bytes] <;> interval_cases k <;> rfl

/-! ### Legal accesses -/

/-- A legal access at offset o of a port's window (R37, R40, R41). -/
def LegalOffset (o : Nat) (n : Width) : Prop :=
  o < 0x1000 ∧ ((o < 0x400 ∧ n = .four ∧ o % 4 = 0) ∨ (0x400 ≤ o ∧ o % n.bytes = 0))

theorem window_div {p o : Nat} (ho : o < 0x1000) : (p * 0x1000 + o) / 0x1000 = p := by omega

theorem window_mod {p o : Nat} (ho : o < 0x1000) : (p * 0x1000 + o) % 0x1000 = o := by omega

/-- The windows start at addresses that every width divides, so alignment is that of the offset. -/
theorem window_mod_bytes (p o : Nat) (n : Width) : (p * 0x1000 + o) % n.bytes = o % n.bytes := by
  cases n <;> simp only [Width.bytes] <;> omega

theorem legalAccess_of_offset {c : Config} {p o : Nat} {n : Width} (hp : p < c.nPorts) (h : LegalOffset o n) :
    illegalAccess c (p * 0x1000 + o) n = false := by
  obtain ⟨ho, hreg | hbuf⟩ := h
  · obtain ⟨hlow, hfour, halign⟩ := hreg
    have : (p * 0x1000 + o) % 4 = 0 := by omega
    simp only [illegalAccess, window_mod ho, hlow, hfour, this, if_true, Bool.or_eq_false_iff, decide_eq_false_iff_not]
    exact ⟨by omega, by simp⟩
  · obtain ⟨hhigh, halign⟩ := hbuf
    simp only [illegalAccess, window_mod ho, window_mod_bytes, halign, Nat.not_lt.mpr hhigh, if_false,
      Bool.or_eq_false_iff, decide_eq_false_iff_not]
    exact ⟨by omega, by simp⟩

/-- What a legal read of a register answers (R38, R64). -/
theorem perform_readRegister {s : State} {p o : Nat} (hp : p < s.cfg.nPorts) (ho : o < 0x400) (halign : o % 4 = 0) :
    perform (.hostRead (p * 0x1000 + o) .four) s = .next { s with resp := .data (s.readRegister p o) } := by
  have ho' : o < 0x1000 := by omega
  simp only [perform, hostRead, legalAccess_of_offset hp ⟨ho', .inl ⟨ho, rfl, halign⟩⟩, State.readData,
    window_mod ho', window_div ho', ho, if_true, Bool.false_eq_true, if_false]

/-- What a legal read of a buffer window answers (R38, R64). -/
theorem perform_readWindow {s : State} {p o : Nat} {n : Width} (hp : p < s.cfg.nPorts) (hlow : 0x400 ≤ o)
    (ho : o < 0x1000) (halign : o % n.bytes = 0) :
    perform (.hostRead (p * 0x1000 + o) n) s =
      .next { s with resp := .data (windowValue (fun k => s.readWindowByte p (o + k)) n) } := by
  simp only [perform, hostRead, legalAccess_of_offset hp ⟨ho, .inr ⟨hlow, halign⟩⟩, State.readData,
    window_mod ho, window_div ho, Nat.not_lt.mpr hlow, Bool.false_eq_true, if_false]

/-- What a legal write does, but for one to CMD (R64). -/
theorem perform_writeWindow {s : State} {p o : Nat} {n : Width} (v : Word) (hp : p < s.cfg.nPorts)
    (h : LegalOffset o n) (hcmd : o ≠ 0) :
    perform (.hostWrite (p * 0x1000 + o) n v) s = .next (writeWindow p o n v { s with resp := .written }) := by
  obtain ⟨ho, _⟩ := id h
  simp only [perform, hostWrite, legalAccess_of_offset hp h, window_mod ho, window_div ho, hcmd, Bool.false_eq_true,
    if_false]

/-- A write to CMD of a busy port is ignored (R23). -/
theorem perform_writeCmd_busy {s : State} {p : Nat} (v : Word) (hp : p < s.cfg.nPorts) (hbusy : s.busy p = true) :
    perform (.hostWrite (p * 0x1000 + 0x000) .four v) s = .next (ignoreWrite p { s with resp := .written }) := by
  have hlegal := legalAccess_of_offset (o := 0) (n := .four) hp ⟨by decide, .inl ⟨by decide, rfl, rfl⟩⟩
  rw [perform, hostWrite, hlegal, window_mod (by decide), window_div (by decide), hbusy]
  rfl

/-! ### Reads -/

/-- Settles O33: a read answers the register at its offset, and each register word has the fields of its rule. -/
theorem registerReadsGiveTheirFields : Obligations.RegisterReadsGiveTheirFields := by
  intro s p o h hp ho halign
  have harg : (s.port p).arg.extractLsb' 24 8 = 0#8 := (h.apart hp).rest.arg_top
  obtain ⟨hbusy, hdone, hign, hreserved⟩ := statusWord_bits s p
  obtain ⟨hrsm, htop⟩ := statusWord_fields s p
  obtain ⟨hcode, happ, hlength⟩ := resultWord_fields s p
  obtain ⟨hheld, hmode, htx, hovf⟩ := gstatusWord_bits s
  obtain ⟨howner, hcount⟩ := gstatusWord_counts h
  refine ⟨s.readRegister p o, _, perform_readRegister hp ho halign, rfl, ?_, ?_, ?_, ?_, ?_, ?_, ?_⟩
  · rintro rfl
    exact ⟨rfl, harg⟩
  · rintro rfl
    exact ⟨hbusy, hdone, hign, hreserved, htop, hrsm.trans (rsm_eq _)⟩
  · rintro rfl
    refine ⟨happ, hlength, hcode.trans ?_⟩
    cases (s.port p).result.code <;> rfl
  · rintro rfl
    exact seqWord_fields s p
  · rintro rfl
    exact ⟨hheld, hmode, htx, hovf, (gstatusWord_fields s).1, howner, hcount⟩
  · rintro rfl
    exact dltypeWord_fields s
  · intro hzero
    unfold State.readRegister
    iterate 6 rw [if_neg (by omega)]

/-- A byte of the CMD_BUF window (R31). -/
theorem readWindowByte_cmdBuf (s : State) (p : Nat) {i : Nat} (hi : i < 0x400) :
    s.readWindowByte p (0x400 + i) = if i < s.cfg.cmdCap then s.cmdBuf p i else 0x00#8 := by
  simp only [State.readWindowByte, show 0x400 + i < 0x800 by omega, if_true, Nat.add_sub_cancel_left]

/-- A byte of the OUT_BUF window (R32). -/
theorem readWindowByte_outBuf (s : State) (p i : Nat) :
    s.readWindowByte p (0x800 + i) = if i < s.cfg.outCap then s.outBuf p i else 0x00#8 := by
  simp only [State.readWindowByte, show ¬ 0x800 + i < 0x800 by omega, if_false, Nat.add_sub_cancel_left]

/-- An aligned access stays inside its window. -/
theorem lane_lt_window {i k : Nat} {n : Width} (hi : i < 0x400) (halign : i % n.bytes = 0) (hk : k < n.bytes) :
    i + k < 0x400 := by
  cases n <;> simp only [Width.bytes] at halign hk <;> omega

/-- The windows start at offsets that every width divides. -/
theorem window_aligned {i : Nat} {n : Width} (halign : i % n.bytes = 0) :
    (0x400 + i) % n.bytes = 0 ∧ (0x800 + i) % n.bytes = 0 := by
  cases n <;> simp only [Width.bytes] at halign ⊢ <;> omega

/-- Settles O34: each lane of the value read is one byte of the window, or past the width. -/
theorem bufferReadsGiveTheirLanes : Obligations.BufferReadsGiveTheirLanes := by
  intro s p i n _ hp halign
  obtain ⟨hcmd, hout⟩ := window_aligned halign
  constructor
  · intro hi
    have hread := perform_readWindow (s := s) hp (Nat.le_add_right _ i) (by omega) hcmd
    rw [← Nat.add_assoc] at hread
    refine ⟨_, _, hread, rfl, fun k hk => ?_⟩
    rw [lane_windowValue _ _ hk, ite_and]
    split
    · next hlane => rw [Nat.add_assoc, readWindowByte_cmdBuf s p (lane_lt_window hi halign hlane)]
    · rfl
  · intro hi
    have hread := perform_readWindow (s := s) (o := 0x800 + i) hp (by omega) (by omega) hout
    rw [← Nat.add_assoc] at hread
    refine ⟨_, _, hread, rfl, fun k hk => ?_⟩
    rw [lane_windowValue _ _ hk, ite_and, Nat.add_assoc, readWindowByte_outBuf]

/-! ### Writes -/

/-- A change of registers of port p alone leaves the other ports, the buffers and the shared state. -/
theorem updPort_frame (s : State) (p : Nat) (f : Port → Port) :
    OtherPortsSame p s (s.updPort p f) ∧ BuffersSame s (s.updPort p f) ∧ SharedSame s (s.updPort p f) :=
  ⟨fun _ hne => port_updPort_ne f hne, fun _ => rfl, rfl, rfl, ⟨rfl, rfl, rfl, rfl⟩, ⟨rfl, rfl⟩, rfl, rfl, rfl,
    rfl⟩

/-- Settles O35: the three writes are `ignoreWrite`, which sets WR_IGN. -/
theorem writesWhileBusyAreIgnored : Obligations.WritesWhileBusyAreIgnored := by
  intro s p o n v h hbusy hwrite
  have hlt : p < s.ports.length := lt_length_of_busy hbusy
  have hp : p < s.cfg.nPorts := h.2.1 ▸ hlt
  have hbusy' : State.busy { s with resp := .written } p = true := hbusy
  suffices hperform : perform (.hostWrite (p * 0x1000 + o) n v) s =
      .next (ignoreWrite p { s with resp := .written }) from
    ⟨_, hperform, port_updPort_same _ hlt, updPort_frame { s with resp := .written } p _⟩
  rcases hwrite with ⟨rfl, rfl | rfl⟩ | ⟨hlow, hhigh, halign⟩
  · exact perform_writeCmd_busy v hp hbusy
  · rw [perform_writeWindow v hp ⟨by decide, .inl ⟨by decide, rfl, rfl⟩⟩ (by decide), writeWindow, if_pos rfl,
      if_pos hbusy']
  · rw [perform_writeWindow v hp ⟨by omega, .inr ⟨hlow, halign⟩⟩ (by omega), writeWindow, if_neg (by omega),
      if_neg (by omega), if_neg (by omega), if_pos ⟨hlow, hhigh⟩, if_pos hbusy']

/-- Settles O36: the stored word is 0 over v[23:0]. -/
theorem argWritesKeepTheLow24Bits : Obligations.ArgWritesKeepTheLow24Bits := by
  intro s p v h hp hidle
  have hidle' : State.busy { s with resp := .written } p = false := hidle
  have hperform : perform (.hostWrite (p * 0x1000 + 0x004) .four v) s =
      .next (writeArg p v { s with resp := .written }) := by
    rw [perform_writeWindow v hp ⟨by decide, .inl ⟨by decide, rfl, rfl⟩⟩ (by decide)]
    simp [writeWindow, hidle']
  have hport : (writeArg p v { s with resp := .written }).port p =
      { s.port p with arg := (0#8 ++ v.extractLsb' 0 24 : BitVec 32) } := port_updPort_same _ (h.apart hp).lt_length
  refine ⟨_, hperform, ?_, ?_, ?_, updPort_frame { s with resp := .written } p _⟩
  · rw [hport]; exact BitVec.extractLsb'_append_eq_right
  · rw [hport]; exact BitVec.extractLsb'_append_eq_left
  · rw [hport]

/-- Clearing a flag where a bit is 1. -/
theorem clear_eq_and_not (x b : Bool) : (if b = true then false else x) = (x && !b) := by cases b <;> simp

/-- Settles O38: both writes are W1C, and touch nothing but their flags. -/
theorem statusWritesClearTheBitsWrittenOne : Obligations.StatusWritesClearTheBitsWrittenOne := by
  intro s p v h hp
  have hstatus : perform (.hostWrite (p * 0x1000 + 0x008) .four v) s =
      .next (writeStatus p v { s with resp := .written }) :=
    perform_writeWindow v hp ⟨by decide, .inl ⟨by decide, rfl, rfl⟩⟩ (by decide)
  have hgstatus : perform (.hostWrite (p * 0x1000 + 0x014) .four v) s =
      .next (writeGstatus v { s with resp := .written }) :=
    perform_writeWindow v hp ⟨by decide, .inl ⟨by decide, rfl, rfl⟩⟩ (by decide)
  refine ⟨⟨_, hstatus, ?_, updPort_frame { s with resp := .written } p _⟩, _, hgstatus, ?_⟩
  · rw [← clear_eq_and_not, ← clear_eq_and_not]
    exact port_updPort_same _ (h.apart hp).lt_length
  · exact ⟨clear_eq_and_not _ _, rfl, fun _ => rfl, rfl, rfl, rfl, rfl, rfl, ⟨rfl, rfl⟩, rfl, rfl, rfl, rfl⟩

/-- Settles O39: no case of a window write is theirs. -/
theorem readOnlyWindowsIgnoreWrites : Obligations.ReadOnlyWindowsIgnoreWrites := by
  intro s p o n v _ hp ho hwindow
  have hlegal : LegalOffset o n := by
    rcases hwindow with ⟨hfour, halign, hreg⟩ | ⟨hlow, halign⟩
    · exact ⟨ho, .inl ⟨by omega, hfour, halign⟩⟩
    · exact ⟨ho, .inr ⟨by omega, halign⟩⟩
  rw [perform_writeWindow v hp hlegal (by omega), writeWindow]
  iterate 4 rw [if_neg (by omega)]

/-- The bytes that a write to CMD_BUF stores: its lanes below CMD_CAP (R31, R40). -/
def storedLanes (c : Config) (i : Nat) (n : Width) (v : Word) : List Byte :=
  ((List.range n.bytes).map (byteLane v)).take (c.cmdCap - i)

theorem writeCmdBuf_mem (p i : Nat) (n : Width) (v : Word) (s : State) :
    (writeCmdBuf p i n v s).mem = s.mem.writeBytes (cmdBufAddr p i) (storedLanes s.cfg i n v) := rfl

theorem storedLanes_length (c : Config) (i : Nat) (n : Width) (v : Word) :
    (storedLanes c i n v).length = min (c.cmdCap - i) n.bytes := by simp [storedLanes]

theorem storedLanes_getElem {c : Config} {i k : Nat} {n : Width} {v : Word} (h : k < (storedLanes c i n v).length) :
    (storedLanes c i n v)[k] = v.extractLsb' (8 * k) 8 := by simp [storedLanes, byteLane]

/-- A write to CMD_BUF stores each lane below CMD_CAP. -/
theorem cmdBuf_writeCmdBuf {s : State} {p i k : Nat} {n : Width} {v : Word} (hk : k < n.bytes)
    (hcap : i + k < s.cfg.cmdCap) : (writeCmdBuf p i n v s).cmdBuf p (i + k) = v.extractLsb' (8 * k) 8 := by
  have hlane : k < (storedLanes s.cfg i n v).length := by rw [storedLanes_length]; omega
  have haddr : cmdBufAddr p (i + k) = cmdBufAddr p i + k := by simp [cmdBufAddr, Nat.add_assoc]
  rw [State.cmdBuf, State.byteAt, writeCmdBuf_mem, haddr, Memory.read_writeBytes_inside _ _ _ _ hlane,
    storedLanes_getElem hlane, Option.getD_some]

/-- A write to CMD_BUF changes no byte but those of the lanes it stores. -/
theorem byteAt_writeCmdBuf_outside {s : State} {p i a : Nat} {n : Width} {v : Word}
    (ha : ∀ k < n.bytes, i + k < s.cfg.cmdCap → a ≠ cmdBufAddr p i + k) :
    (writeCmdBuf p i n v s).byteAt a = s.byteAt a := by
  have houtside : a < cmdBufAddr p i ∨ cmdBufAddr p i + (storedLanes s.cfg i n v).length ≤ a := by
    by_contra hin
    rw [storedLanes_length] at hin
    exact ha (a - cmdBufAddr p i) (by omega) (by omega) (by omega)
  rw [State.byteAt, writeCmdBuf_mem, Memory.read_writeBytes_outside _ _ houtside]
  rfl

/-- Settles O37: the write is `writeCmdBuf`, which stores its lanes below CMD_CAP and nothing else. -/
theorem cmdBufWritesStoreTheirLanes : Obligations.CmdBufWritesStoreTheirLanes := by
  intro s p i n v _ hp hidle hi halign
  have hidle' : State.busy { s with resp := .written } p = false := hidle
  have hperform : perform (.hostWrite (p * 0x1000 + 0x400 + i) n v) s =
      .next (writeCmdBuf p i n v { s with resp := .written }) := by
    rw [Nat.add_assoc,
      perform_writeWindow v hp ⟨by omega, .inr ⟨by omega, (window_aligned halign).1⟩⟩ (by omega), writeWindow, if_neg (by omega), if_neg (by omega), if_neg (by omega), if_pos ⟨by omega, by omega⟩, hidle']
    simp only [Bool.false_eq_true, if_false, Nat.add_sub_cancel_left]
  refine ⟨_, hperform, fun k hk hcap => cmdBuf_writeCmdBuf hk hcap, fun a ha => ?_, rfl,
    rfl, rfl, ⟨rfl, rfl, rfl, rfl⟩, ⟨rfl, rfl⟩, rfl, rfl, rfl, rfl⟩
  refine (byteAt_writeCmdBuf_outside fun k hk hcap => ?_).trans rfl
  rw [cmdBufAddr, Nat.add_assoc (p * 0x1000 + 0x400)]
  exact ha k hk hcap

end Sys2Proof.Machine
end

/-! ## What one step of an operation can do (R65 to R99) -/

section
namespace Sys2Proof.Machine

/-! ### Registers set twice -/

theorem setPort_port (s : State) (p : Nat) : s.setPort p (s.port p) = s := by
  by_cases hp : p < s.ports.length
  · simp [State.setPort, State.port, hp]
  · simp [State.setPort, List.set_eq_of_length_le (Nat.le_of_not_lt hp)]

theorem updPort_eq (s : State) (p : Nat) (f : Port → Port) : s.updPort p f = s.setPort p (f (s.port p)) := rfl

theorem updPort_setPort (s : State) (p : Nat) (x : Port) (f : Port → Port) :
    (s.setPort p x).updPort p f = s.setPort p (f x) := by
  by_cases hp : p < s.ports.length
  · rw [updPort_eq, port_setPort_same x hp]
    simp [State.setPort]
  · have hlen := Nat.le_of_not_lt hp
    simp [State.updPort, State.setPort, List.set_eq_of_length_le hlen]

theorem port_setPort_cases (s : State) (p p' : Nat) (x : Port) :
    (s.setPort p x).port p' = s.port p' ∨ (p' = p ∧ (s.setPort p x).port p' = x) := by
  by_cases hne : p' = p
  · subst hne
    by_cases hp : p' < s.ports.length
    · exact .inr ⟨rfl, port_setPort_same x hp⟩
    · exact .inl (by simp [State.port, State.setPort, List.set_eq_of_length_le (Nat.le_of_not_lt hp)])
  · exact .inl (port_setPort_ne x hne)

/-! ### The forms of a step -/

/-- The registers y report the RESULT and the SEQ of x. -/
structure SameReport (x y : Port) : Prop where
  result : y.result = x.result
  seq : y.seq = x.seq

theorem SameReport.refl (x : Port) : SameReport x x := ⟨rfl, rfl⟩

/-- The phases in which an engine step pops a byte (R69). -/
def byteWaits : List Phase := [.rxReply, .rxTlm, .dlSeekStart, .dlAccum, .dlSeekEnd]

/-- The phase in which an operation succeeds (R86 to R99). -/
def lastPhase : Instr → Phase
  | .stuff => .exec
  | .destuff => .exec
  | .cmdReply => .rxReply
  | .cmdNoreply => .txWait
  | .tlmReq => .rxTlm
  | .dlEnter => .tokenWait
  | .dlRecv => .dlSeekEnd
  | .dlExit => .exec

/-- The bound on the bytes that an operation of port p delivers in OUT_BUF (R86 to R88, R92, R99). -/
def outLimit (s : State) (p : Nat) : Instr → Nat
  | .stuff => s.cfg.outCap
  | .destuff => s.cfg.outCap
  | .cmdReply => s.cfg.replyLen
  | .tlmReq => s.lenOperand p
  | .dlRecv => s.cfg.dlDataLen
  | _ => 0

/-- What an engine step of port p takes from the shared state, or gives to it, while its operation goes on or
succeeds. -/
inductive Exchange (p : Nat) (s : State) : State → Prop
  | nothing : Exchange p s s
  | byte {b : Byte} {rest : List Byte} (hph : (s.port p).phase ∈ byteWaits) (hq : s.q = b :: rest) :
      Exchange p s { s with q := rest }
  | signal (hph : (s.port p).phase = .txWait) : Exchange p s { s with txDone := false }
  | token (hph : (s.port p).phase = .tokenWait) (hfree : s.token.held = false) : Exchange p s (acquire p s)
  | frame (f : List Byte) (hph : (s.port p).phase = .build) : Exchange p s (handoff f s)

/-- Everything that an engine step or a timeout of operation i on port p can do. -/
inductive OpStep (i : Instr) (p : Nat) (s : State) : Event → State → Prop
  /-- The step is not enabled (log 5). -/
  | stays {e : Event} (he : e = .engine p ∨ e = .timeout p) : OpStep i p s e s
  /-- New registers of p, none that the host reads as the outcome. -/
  | goesOn {u : State} {x : Port} (hx : Exchange p s u) (hsame : SameReport (s.port p) x) :
      OpStep i p s (.engine p) (u.setPort p x)
  /-- An error (R103); in TOKEN_WAIT only the timeout's. -/
  | fails {e : Event} {code : ResultCode} (he : e = .engine p ∨ e = .timeout p) (hcode : code ≠ .ok)
      (hwait : (s.port p).phase = .tokenWait → code = .busBusy) : OpStep i p s e (raiseFail i p code s)
  /-- DL_ENTER gets the token (R93). -/
  | enters (hi : i = .dlEnter) (hfree : s.token.held = false) :
      OpStep i p s (.engine p) (openSession p (acquire p s))
  /-- The success of any other operation, with new registers of p and its bytes in OUT_BUF. -/
  | succeeds {u : State} {x : Port} {app : Byte} {len : Nat} {out : List Byte} (hi : i ≠ .dlEnter)
      (hph : (s.port p).phase = lastPhase i) (hx : Exchange p s u)
      (hseq : x.seq = (s.port p).seq ∨ i = .dlRecv) (hlen : out.length = len) (hlimit : len ≤ outLimit s p i) :
      OpStep i p s (.engine p) (terminate i p .ok app len ((u.setPort p x).writeOut p out))

namespace Exchange

variable {p : Nat} {s u : State}

theorem cfg (h : Exchange p s u) : u.cfg = s.cfg := by cases h <;> rfl
theorem ports (h : Exchange p s u) : u.ports = s.ports := by cases h <;> rfl
theorem mem (h : Exchange p s u) : u.mem = s.mem := by cases h <;> rfl
theorem epoch (h : Exchange p s u) : u.epoch = s.epoch := by cases h <;> rfl
theorem dlMode (h : Exchange p s u) : u.dlMode = s.dlMode := by cases h <;> rfl

theorem port (h : Exchange p s u) (p' : Nat) : u.port p' = s.port p' := by rw [State.port, h.ports, State.port]

theorem byteAt (h : Exchange p s u) (a : Nat) : u.byteAt a = s.byteAt a := by
  rw [State.byteAt, h.mem, h.epoch, State.byteAt]

theorem token_eq (h : Exchange p s u) (hph : (s.port p).phase ≠ .tokenWait) : u.token = s.token := by
  cases h with
  | token hwait _ => exact absurd hwait hph
  | _ => rfl

theorem q_cases (h : Exchange p s u) :
    u.q = s.q ∨ ((s.port p).phase ∈ byteWaits ∧ ∃ b, s.q = b :: u.q) := by
  cases h with
  | byte hph hq => exact .inr ⟨hph, _, hq⟩
  | _ => exact .inl rfl

theorem txDone_cases (h : Exchange p s u) :
    u.txDone = s.txDone ∨ ((s.port p).phase = .txWait ∧ u.txDone = false) := by
  cases h with
  | signal hph => exact .inr ⟨hph, rfl⟩
  | _ => exact .inl rfl

end Exchange

/-! ### Every engine step and every timeout has one of these forms -/

variable {p : Nat} {s : State}

namespace OpStep

theorem of_timeout (i : Instr) (p : Nat) (s : State) : OpStep i p s (.timeout p) (timeoutStep i p s) := by
  rcases timeoutStep_cases i p s with ⟨_, e⟩ | ⟨_, e⟩
  · rw [e]
    refine .fails (.inr rfl) ?_ fun hph => by rw [hph]; rfl
    cases (s.port p).phase <;> decide
  · rw [e]; exact .stays (.inr rfl)

/-- An error of an engine step, which is in no TOKEN_WAIT. -/
theorem of_error {i : Instr} {code : ResultCode} {ph : Phase} (hph : (s.port p).phase = ph) (hcode : code ≠ .ok)
    (hne : ph ≠ .tokenWait) : OpStep i p s (.engine p) (raiseFail i p code s) :=
  .fails (.inl rfl) hcode fun hwait => absurd (hph.symm.trans hwait) hne

/-- A success that leaves the registers of p to its report. -/
theorem of_success {i : Instr} {u : State} {app : Byte} {out : List Byte} (hi : i ≠ .dlEnter)
    (hph : (s.port p).phase = lastPhase i) (hx : Exchange p s u) (hlimit : out.length ≤ outLimit s p i) :
    OpStep i p s (.engine p) (terminate i p .ok app out.length (u.writeOut p out)) := by
  have h := OpStep.succeeds (app := app) (out := out) (x := s.port p) hi hph hx (.inl rfl) rfl hlimit
  rwa [← hx.port p, setPort_port] at h

theorem of_codecExec {i : Instr} (out : List Byte) (hph : (s.port p).phase = .exec) (hi : i ≠ .dlEnter)
    (hlast : lastPhase i = .exec) (hlimit : outLimit s p i = s.cfg.outCap) :
    OpStep i p s (.engine p) (codecExec i out p s) := by
  unfold codecExec
  split
  · exact of_error hph (by decide) (by decide)
  · exact of_success hi (hph.trans hlast.symm) .nothing (by omega)

/-- TOKEN_WAIT of the commands that build a frame under the token. -/
theorem of_awaitToken_build (i : Instr) (hph : (s.port p).phase = .tokenWait) :
    OpStep i p s (.engine p) (awaitToken p (fun t => t.toPhase p .build) s) := by
  rcases awaitToken_cases p (fun t => t.toPhase p .build) s with ⟨_, e⟩ | ⟨hfree, e⟩
  · rw [e]; exact .stays (.inl rfl)
  · rw [e]; exact .goesOn (.token hph hfree) ⟨rfl, rfl⟩

theorem of_buildCommand (i : Instr) (hph : (s.port p).phase = .build) :
    OpStep i p s (.engine p) (buildCommand i p s) := by
  unfold buildCommand
  dsimp only
  split
  · exact of_error hph (by decide) (by decide)
  · exact .goesOn (.frame _ hph) ⟨rfl, rfl⟩

theorem of_buildTelemetry (hph : (s.port p).phase = .build) : OpStep .tlmReq p s (.engine p) (buildTelemetry p s) := by
  unfold buildTelemetry
  split
  · exact of_error hph (by decide) (by decide)
  · exact .goesOn (.frame _ hph) ⟨rfl, rfl⟩

/-- A wait for the transmitter, whose end only changes registers of p. -/
theorem of_awaitTxDone {i : Instr} {f : Port → Port} (hph : (s.port p).phase = .txWait)
    (hsame : ∀ x, SameReport x (f x)) : OpStep i p s (.engine p) (awaitTxDone (fun t => t.updPort p f) s) := by
  rcases awaitTxDone_cases (fun t => t.updPort p f) s with ⟨_, e⟩ | ⟨_, e⟩
  · rw [e]; exact .stays (.inl rfl)
  · rw [e]; exact .goesOn (.signal hph) (hsame _)

/-- A byte wait, whose end is one of these forms for each byte popped. -/
theorem of_awaitByte {i : Instr} {k : Byte → State → State} (hph : (s.port p).phase ∈ byteWaits)
    (hk : ∀ b u, Exchange p s u → OpStep i p s (.engine p) (k b u)) : OpStep i p s (.engine p) (awaitByte k s) := by
  rcases awaitByte_cases k s with ⟨_, e⟩ | ⟨b, rest, hq, e⟩
  · rw [e]; exact .stays (.inl rfl)
  · rw [e]; exact hk b _ (.byte hph hq)

theorem of_rxReplyByte {u : State} (b : Byte) (hph : (s.port p).phase = .rxReply) (hx : Exchange p s u) :
    OpStep .cmdReply p s (.engine p) (rxReplyByte p b u) := by
  have hport := hx.port p
  have hcfg := hx.cfg
  unfold rxReplyByte
  dsimp only
  split
  · refine .succeeds (by decide) hph hx (.inl ?_) (slice_length _ _ _) ?_
    · rw [hport]
    · simp [outLimit, hcfg]
  · refine .goesOn hx ?_
    rw [hport]
    exact ⟨rfl, rfl⟩

theorem of_finishTelemetry {u : State} {x : Port} (hp : p < s.ports.length) (hph : (s.port p).phase = .rxTlm)
    (hx : Exchange p s u) (hseq : x.seq = (s.port p).seq) (harg : x.arg = (s.port p).arg) :
    OpStep .tlmReq p s (.engine p) (finishTelemetry p (u.setPort p x)) := by
  have hoperand : (u.setPort p x).lenOperand p = s.lenOperand p := by
    rw [lenOperand_eq, port_setPort_same x (hx.ports ▸ hp), Port.len, harg]
    rfl
  unfold finishTelemetry
  dsimp only
  rw [hoperand]
  exact .succeeds (by decide) hph hx (.inl hseq) rfl (List.length_take_le _ _)

theorem of_rxTlmByte {u : State} (b : Byte) (hp : p < s.ports.length) (hph : (s.port p).phase = .rxTlm)
    (hx : Exchange p s u) : OpStep .tlmReq p s (.engine p) (rxTlmByte p b u) := by
  have hport := hx.port p
  unfold rxTlmByte storeReplyByte
  dsimp only
  rw [updPort_eq u, updPort_setPort, hport]
  split
  · exact of_finishTelemetry hp hph hx rfl rfl
  · exact .goesOn hx ⟨rfl, rfl⟩

theorem of_seekStartByte {u : State} (b : Byte) (hx : Exchange p s u) :
    OpStep .dlRecv p s (.engine p) (seekStartByte p b u) := by
  have hport := hx.port p
  unfold seekStartByte shiftWindow beginFrame
  dsimp only
  rw [updPort_eq u, hport]
  split
  · rw [updPort_setPort]
    exact .goesOn hx ⟨rfl, rfl⟩
  · exact .goesOn hx ⟨rfl, rfl⟩

theorem of_accumByte {u : State} (b : Byte) (hx : Exchange p s u) :
    OpStep .dlRecv p s (.engine p) (accumByte p b u) := by
  have hport := hx.port p
  unfold accumByte storeFrameByte State.toPhase
  dsimp only
  rw [updPort_eq u, hport]
  split
  · rw [updPort_setPort]
    exact .goesOn hx ⟨rfl, rfl⟩
  · exact .goesOn hx ⟨rfl, rfl⟩

theorem of_finishPacket {u : State} (x : Port) (hph : (s.port p).phase = .dlSeekEnd) (hx : Exchange p s u) :
    OpStep .dlRecv p s (.engine p) (finishPacket p (u.setPort p x)) := by
  have hcut (bs : List Byte) : (bs.take (u.setPort p x).cfg.dlDataLen).length ≤ outLimit s p .dlRecv := by
    rw [setPort_cfg, hx.cfg]
    exact List.length_take_le _ _
  have hwritten (out : List Byte) (f : Port → Port) :
      ((u.setPort p x).writeOut p out).updPort p f = (u.setPort p (f x)).writeOut p out := by
    rw [← updPort_setPort]
    rfl
  unfold finishPacket
  dsimp only
  rw [hwritten]
  exact .succeeds (by decide) hph hx (.inr rfl) rfl (hcut _)

theorem of_seekEndByte {u : State} (b : Byte) (hph : (s.port p).phase = .dlSeekEnd) (hx : Exchange p s u) :
    OpStep .dlRecv p s (.engine p) (seekEndByte p b u) := by
  have hport := hx.port p
  unfold seekEndByte storeFrameByte
  dsimp only
  rw [updPort_eq u, hport]
  split
  · exact of_finishPacket _ hph hx
  · exact .goesOn hx ⟨rfl, rfl⟩

theorem of_stuffEngine : OpStep .stuff p s (.engine p) (stuffEngine p s) := by
  unfold stuffEngine
  split
  · next hph => exact of_codecExec _ hph (by decide) rfl rfl
  · exact .stays (.inl rfl)

theorem of_destuffEngine : OpStep .destuff p s (.engine p) (destuffEngine p s) := by
  unfold destuffEngine
  split
  · next hph => exact of_codecExec _ hph (by decide) rfl rfl
  · exact .stays (.inl rfl)

theorem of_cmdReplyEngine : OpStep .cmdReply p s (.engine p) (cmdReplyEngine p s) := by
  unfold cmdReplyEngine
  split
  · next hph => exact of_awaitToken_build _ hph
  · next hph => exact of_buildCommand _ hph
  · next hph => exact of_awaitTxDone hph fun _ => ⟨rfl, rfl⟩
  · next hph => exact of_awaitByte (by rw [hph]; decide) fun b _ hx => of_rxReplyByte b hph hx
  · exact .stays (.inl rfl)

theorem of_cmdNoreplyEngine : OpStep .cmdNoreply p s (.engine p) (cmdNoreplyEngine p s) := by
  unfold cmdNoreplyEngine
  split
  · next hph => exact of_buildCommand _ hph
  · next hph =>
    rcases awaitTxDone_cases (terminate .cmdNoreply p .ok 0x00#8 0) s with ⟨_, e⟩ | ⟨_, e⟩
    · rw [e]; exact .stays (.inl rfl)
    · rw [e]; exact of_success (out := []) (by decide) hph (.signal hph) (Nat.le_refl _)
  · exact .stays (.inl rfl)

theorem of_tlmReqEngine (hp : p < s.ports.length) : OpStep .tlmReq p s (.engine p) (tlmReqEngine p s) := by
  unfold tlmReqEngine rxTlmStep
  split
  · next hph => exact of_awaitToken_build _ hph
  · next hph => exact of_buildTelemetry hph
  · next hph => exact of_awaitTxDone hph fun _ => ⟨rfl, rfl⟩
  · next hph =>
    split
    · exact of_error hph (by decide) (by decide)
    · exact of_awaitByte (by rw [hph]; decide) fun b _ hx => of_rxTlmByte b hp hph hx
  · exact .stays (.inl rfl)

theorem of_dlEnterEngine : OpStep .dlEnter p s (.engine p) (dlEnterEngine p s) := by
  unfold dlEnterEngine
  split
  · rcases awaitToken_cases p (openSession p) s with ⟨_, e⟩ | ⟨hfree, e⟩
    · rw [e]; exact .stays (.inl rfl)
    · rw [e]; exact .enters rfl hfree
  · exact .stays (.inl rfl)

theorem of_dlRecvEngine : OpStep .dlRecv p s (.engine p) (dlRecvEngine p s) := by
  unfold dlRecvEngine seekEndStep
  split
  · next hph => exact of_awaitByte (by rw [hph]; decide) fun b _ hx => of_seekStartByte b hx
  · next hph => exact of_awaitByte (by rw [hph]; decide) fun b _ hx => of_accumByte b hx
  · next hph =>
    split
    · exact of_error hph (by decide) (by decide)
    · exact of_awaitByte (by rw [hph]; decide) fun b _ hx => of_seekEndByte b hph hx
  · exact .stays (.inl rfl)

theorem of_dlExitEngine : OpStep .dlExit p s (.engine p) (dlExitEngine p s) := by
  unfold dlExitEngine
  split
  · next hph => exact of_success (out := []) (by decide) hph .nothing (Nat.le_refl _)
  · exact .stays (.inl rfl)

theorem of_engineOf (i : Instr) (hp : p < s.ports.length) : OpStep i p s (.engine p) (engineOf i p s) := by
  cases i with
  | stuff => exact of_stuffEngine
  | destuff => exact of_destuffEngine
  | cmdReply => exact of_cmdReplyEngine
  | cmdNoreply => exact of_cmdNoreplyEngine
  | tlmReq => exact of_tlmReqEngine hp
  | dlEnter => exact of_dlEnterEngine
  | dlRecv => exact of_dlRecvEngine
  | dlExit => exact of_dlExitEngine

end OpStep

end Sys2Proof.Machine
end

/-! ## What one step of an operation changes: the shared state, the report, the buffers -/

section
namespace Sys2Proof.Machine

/-! ### Terminal steps -/

@[simp] theorem cleanup_txDone (c : Cleanup) (p : Nat) (s : State) : (cleanup c p s).txDone = s.txDone := by
  obtain ⟨drains, releases, mode⟩ := c
  cases drains <;> cases releases <;> cases mode <;> simp [cleanup]

@[simp] theorem terminate_txDone (i : Instr) (p : Nat) (code : ResultCode) (app : Byte) (len : Nat) (s : State) :
    (terminate i p code app len s).txDone = s.txDone := by simp [terminate]

/-- The rows of R104 that move the session are the successes of DL_ENTER and DL_EXIT. -/
theorem cleanupOf_session_cases (i : Instr) (code : ResultCode) :
    cleanupOf i code = Cleanup.nothing ∨ (inSession i = false ∧ cleanupOf i code = Cleanup.drainAndRelease) ∨
    (i = .dlEnter ∧ code = .ok) ∨ (i = .dlExit ∧ code = .ok) := by
  cases i <;> cases code <;> decide

/-- A terminal step, but for the success of DL_ENTER, leaves Q, the token and the session, or the owner of the token
drains and releases, which closes a session only in DL_EXIT (R104). -/
theorem terminate_shared {i : Instr} {p : Nat} {code : ResultCode} {app : Byte} {len : Nat} {s t : State}
    (ht : t = terminate i p code app len s) (hmay : MayClean s p i code) (henter : ¬ (i = .dlEnter ∧ code = .ok)) :
    (t.q = s.q ∧ t.token = s.token ∧ t.dlMode = s.dlMode) ∨
    (s.token = { held := true, owner := p } ∧ t.token = Token.free ∧ t.q = [] ∧ t.dlMode = false ∧
      (s.dlMode = false ∨ (i = .dlExit ∧ code = .ok))) := by
  have hq : t.q = (cleanup (cleanupOf i code) p s).q := ht ▸ rfl
  have htok : t.token = (cleanup (cleanupOf i code) p s).token := ht ▸ rfl
  have hdl : t.dlMode = (cleanup (cleanupOf i code) p s).dlMode := ht ▸ rfl
  rw [hq, htok, hdl]
  rcases hmay with hnothing | ⟨htoken, hmode⟩
  · rw [hnothing]; exact .inl ⟨rfl, rfl, rfl⟩
  have hrelease : release p (drain s) = { drain s with token := Token.free } := release_of_owner htoken
  rcases cleanupOf_session_cases i code with hrow | ⟨hout, hrow⟩ | hrow | ⟨rfl, rfl⟩
  · rw [hrow]; exact .inl ⟨rfl, rfl, rfl⟩
  · have hclosed : s.dlMode = false := hmode.trans hout
    rw [hrow, cleanup_drainAndRelease, hrelease]
    exact .inr ⟨htoken, rfl, rfl, hclosed, .inl hclosed⟩
  · exact absurd hrow henter
  · have hclose : cleanup (cleanupOf .dlExit .ok) p s = { drain s with token := Token.free, dlMode := false } := by
      simp only [cleanupOf, cleanup, if_true, hrelease]
    rw [hclose]
    exact .inr ⟨htoken, rfl, rfl, rfl, .inr ⟨rfl, rfl⟩⟩

theorem port_openSession {s : State} {p : Nat} (hp : p < s.ports.length) : (openSession p s).port p =
    { s.port p with result := { code := .ok, app := 0x00#8, length := 0#16 }, phase := .idle, done := true } :=
  port_terminate (s := { s with dlType := s.idOperand p }) _ _ _ _ hp

/-! ### The shared state -/

/-- What a step of operation i on port p does to the token, the session and Q. -/
inductive SharedEffect (i : Instr) (p : Nat) (s : State) (e : Event) (t : State) : Prop
  /-- Q loses at most its first byte, to the port that holds the token. -/
  | keeps (htoken : t.token = s.token) (hmode : t.dlMode = s.dlMode)
      (hq : t.q = s.q ∨ (e = .engine p ∧ s.token = { held := true, owner := p } ∧ ∃ b, s.q = b :: t.q))
  /-- Only DL_ENTER opens a session. -/
  | acquires (he : e = .engine p) (hfree : s.token.held = false) (htoken : t.token = { held := true, owner := p })
      (hmode : t.dlMode = s.dlMode ∨ i = .dlEnter) (hq : t.q = s.q)
  /-- Only DL_EXIT closes a session. -/
  | releases (he : e = .engine p ∨ e = .timeout p) (hown : s.token = { held := true, owner := p })
      (htoken : t.token = Token.free) (hq : t.q = []) (hmode : t.dlMode = false)
      (hexit : s.dlMode = false ∨ (e = .engine p ∧ i = .dlExit))

/-- The port of an operation that pops bytes holds the token (R69). -/
theorem InProgress.owner_of_byteWait {s : State} {p : Nat} {i : Instr} {x : Port} (hi : InProgress s p i x)
    (hph : x.phase ∈ byteWaits) : s.token = { held := true, owner := p } := by
  have hown := hi.phase_mem
  refine (hi.token ?_).1
  generalize x.phase = ph at hph hown ⊢
  revert hph hown
  cases i <;> cases ph <;> decide

/-- An operation that succeeds may clean up. -/
theorem InProgress.mayClean_ok {s : State} {p : Nat} {i : Instr} {x : Port} (hi : InProgress s p i x)
    (henter : i ≠ .dlEnter) (hph : x.phase = lastPhase i) : MayClean s p i .ok := by
  cases i with
  | stuff => exact .inl rfl
  | destuff => exact .inl rfl
  | cmdNoreply => exact .inl rfl
  | dlEnter => exact absurd rfl henter
  | cmdReply => exact hi.mayClean (by rw [hph]; decide) _
  | tlmReq => exact hi.mayClean (by rw [hph]; decide) _
  | dlRecv => exact hi.mayClean rfl _
  | dlExit => exact hi.mayClean rfl _

theorem lastPhase_ne_tokenWait {i : Instr} (henter : i ≠ .dlEnter) : lastPhase i ≠ .tokenWait := by
  revert henter
  cases i <;> decide

namespace OpStep

variable {i : Instr} {p : Nat} {s t : State} {e : Event}

theorem sharedEffect (h : OpStep i p s e t) (hi : InProgress s p i (s.port p)) : SharedEffect i p s e t := by
  cases h with
  | stays => exact .keeps rfl rfl (.inl rfl)
  | @goesOn u x hx hsame =>
    cases hx with
    | nothing => exact .keeps rfl rfl (.inl rfl)
    | byte hph hq => exact .keeps rfl rfl (.inr ⟨rfl, hi.owner_of_byteWait hph, _, hq⟩)
    | signal => exact .keeps rfl rfl (.inl rfl)
    | token _ hfree => exact .acquires rfl hfree rfl (.inl rfl) rfl
    | frame => exact .keeps rfl rfl (.inl rfl)
  | @fails e code he hcode hwait =>
    rcases terminate_shared rfl (hi.mayClean_error hcode hwait) (fun hok => hcode hok.2) with
      ⟨hq, htoken, hmode⟩ | ⟨hown, htoken, hq, hmode, hexit⟩
    · exact .keeps htoken hmode (.inl hq)
    · exact .releases he hown htoken hq hmode (hexit.imp id fun hok => absurd hok.2 hcode)
  | enters henter hfree => exact .acquires rfl hfree rfl (.inr henter) rfl
  | @succeeds u x app len out henter hph hx =>
    have htok : u.token = s.token := hx.token_eq (hph ▸ lastPhase_ne_tokenWait henter)
    have hmay : MayClean ((u.setPort p x).writeOut p out) p i .ok :=
      (hi.mayClean_ok henter hph).imp id fun ⟨hown, hmode⟩ => ⟨htok.trans hown, hx.dlMode.trans hmode⟩
    rcases terminate_shared rfl hmay (fun hok => henter hok.1) with
      ⟨hq, htoken, hmode⟩ | ⟨hown, htoken, hq, hmode, hexit⟩
    · refine .keeps (htoken.trans htok) (hmode.trans hx.dlMode) ?_
      rw [hq]
      exact hx.q_cases.imp id fun ⟨hwait, hb⟩ => ⟨rfl, hi.owner_of_byteWait hwait, hb⟩
    · exact .releases (.inl rfl) (htok.symm.trans hown) htoken hq hmode
        (hexit.imp hx.dlMode.symm.trans fun hok => ⟨rfl, hok.1⟩)

/-- The one-slot signal is only consumed (R73). -/
theorem txDone_cases (h : OpStep i p s e t) :
    t.txDone = s.txDone ∨ (t.txDone = false ∧ e = .engine p ∧ (s.port p).phase = .txWait) := by
  cases h with
  | stays => exact .inl rfl
  | goesOn hx => exact hx.txDone_cases.imp id fun ⟨hph, hdone⟩ => ⟨hdone, rfl, hph⟩
  | fails => exact .inl (terminate_txDone _ _ _ _ _ _)
  | enters => exact .inl rfl
  | succeeds _ _ hx =>
    rw [terminate_txDone]
    exact hx.txDone_cases.imp id fun ⟨hph, hdone⟩ => ⟨hdone, rfl, hph⟩

/-! ### The report of a port -/

/-- An operation changes no register of another port (R113). -/
theorem port_ne (h : OpStep i p s e t) {p' : Nat} (hne : p' ≠ p) : t.port p' = s.port p' := by
  cases h with
  | stays => rfl
  | goesOn hx => rw [port_setPort_ne _ hne, hx.port]
  | fails => exact port_terminate_ne _ _ _ _ hne
  | enters => exact port_terminate_ne _ _ _ _ hne
  | succeeds _ _ hx => rw [port_terminate_ne _ _ _ _ hne, port_writeOut, port_setPort_ne _ hne, hx.port]

/-- The outcome that port p reports after a completion, the registers before it being x (R67): SEQ is new only after
DL_RECV, which found its end marker (R99). -/
def Completes (i : Instr) (p : Nat) (e : Event) (x y : Port) : Prop :=
  (e = .engine p ∨ e = .timeout p) ∧ y.phase = .idle ∧ y.done = true ∧
  (y.seq = x.seq ∨ (e = .engine p ∧ i = .dlRecv ∧ x.phase = .dlSeekEnd ∧ y.result.code = .ok))

/-- A step of an operation leaves the report of its port, or completes. -/
theorem report_cases (h : OpStep i p s e t) (hp : p < s.ports.length) :
    SameReport (s.port p) (t.port p) ∨ Completes i p e (s.port p) (t.port p) := by
  cases h with
  | stays => exact .inl (.refl _)
  | goesOn hx hsame =>
    rw [port_setPort_same _ (hx.ports ▸ hp)]
    exact .inl hsame
  | fails he =>
    rw [raiseFail, port_terminate _ _ _ _ hp]
    exact .inr ⟨he, rfl, rfl, .inl rfl⟩
  | enters =>
    rw [port_openSession (s := acquire p s) hp]
    exact .inr ⟨.inl rfl, rfl, rfl, .inl rfl⟩
  | @succeeds u x _ _ _ _ hph hx hseq =>
    have hp' : p < u.ports.length := hx.ports ▸ hp
    rw [port_terminate _ _ _ _ (by simpa using hp'), port_writeOut, port_setPort_same _ hp']
    refine .inr ⟨.inl rfl, rfl, rfl, hseq.imp id fun hrecv => ⟨rfl, hrecv, ?_, rfl⟩⟩
    rw [hph, hrecv]
    rfl

/-! ### The buffers -/

/-- A step of an operation stores bytes only in OUT_BUF below LENGTH, and only when it succeeds (R32). -/
theorem byteAt_cases (h : OpStep i p s e t) (hp : p < s.ports.length) (a : Nat) :
    t.byteAt a = s.byteAt a ∨
    (e = .engine p ∧ (s.port p).phase = lastPhase i ∧ (t.port p).phase = .idle ∧ (t.port p).result.code = .ok ∧
      ∃ len, len ≤ outLimit s p i ∧ (t.port p).result.length = BitVec.ofNat 16 len ∧ outBufAddr p 0 ≤ a ∧
        a < outBufAddr p 0 + len) := by
  cases h with
  | stays => exact .inl rfl
  | goesOn hx => exact .inl (hx.byteAt a)
  | fails => exact .inl (byteAt_terminate _ _ _ _ _ _ a)
  | enters => exact .inl rfl
  | @succeeds u x app len out henter hph hx hseq hlen hlimit =>
    have hp' : p < u.ports.length := hx.ports ▸ hp
    rw [byteAt_terminate, port_terminate _ _ _ _ (by simpa using hp')]
    by_cases hin : outBufAddr p 0 ≤ a ∧ a < outBufAddr p 0 + len
    · exact .inr ⟨rfl, hph, rfl, rfl, len, hlimit, rfl, hin⟩
    · left
      rw [byteAt_writeOut_outside _ _ _ (by omega), byteAt_setPort, hx.byteAt]

end OpStep

/-- What an operation delivers fits OUT_BUF (R8, R92). -/
theorem InProgress.outLimit_le {s : State} {p : Nat} {i : Instr} (hi : InProgress s p i (s.port p))
    (hlegal : s.cfg.legal = true) (hph : (s.port p).phase = lastPhase i) : outLimit s p i ≤ s.cfg.outCap := by
  cases i with
  | stuff => exact Nat.le_refl _
  | destuff => exact Nat.le_refl _
  | cmdReply => exact (replyLen_bounds hlegal).2.2
  | tlmReq => exact hi.telemetry rfl (.inr hph)
  | dlRecv => exact (frame_bounds hlegal).2
  | cmdNoreply => exact Nat.zero_le _
  | dlEnter => exact Nat.zero_le _
  | dlExit => exact Nat.zero_le _

end Sys2Proof.Machine
end

/-! ## What one agent's step can do (R10, R11) -/

section
namespace Sys2Proof.Machine

/-! ### Host writes -/

/-- Everything that a MemWrite of n bytes at address a can do (R41, R64, R65); r and c are the model's own bookkeeping
(logs 7 and 10). -/
inductive HostStep (a : Nat) (n : Width) (s : State) : State → Prop
  /-- A bus error, or a write that its register ignores. -/
  | answered (r : Response) : HostStep a n s { s with resp := r }
  /-- New registers of the port, none that the host reads as an outcome: ARG, STATUS, WR_IGN, an accepted command. -/
  | registers (r : Response) (c : Sel) {x : Port} (hsame : SameReport (s.port (a / 0x1000)) x) :
      HostStep a n s ({ s with resp := r, sel := c }.setPort (a / 0x1000) x)
  /-- GSTATUS. -/
  | overflow (r : Response) (f : Bool) : HostStep a n s { s with resp := r, rxOvf := f }
  /-- The CMD_BUF window of an idle port. -/
  | stored (r : Response) (v : Word) (hlow : 0x400 ≤ a % 0x1000) (hhigh : a % 0x1000 < 0x800)
      (hidle : s.busy (a / 0x1000) = false) :
      HostStep a n s (writeCmdBuf (a / 0x1000) (a % 0x1000 - 0x400) n v { s with resp := r })
  /-- A CMD write to an idle port that ends with BAD_COMMAND. -/
  | rejected (r : Response) (c : Sel) (hlegal : illegalAccess s.cfg a n = false) (hcmd : a % 0x1000 = 0)
      (hidle : s.busy (a / 0x1000) = false) :
      HostStep a n s (complete (a / 0x1000) .badCommand 0x00#8 0 { s with resp := r, sel := c })

@[simp] theorem writeCmdBuf_q (p i : Nat) (n : Width) (v : Word) (s : State) :
    (writeCmdBuf p i n v s).q = s.q := rfl
@[simp] theorem writeCmdBuf_token (p i : Nat) (n : Width) (v : Word) (s : State) :
    (writeCmdBuf p i n v s).token = s.token := rfl
@[simp] theorem writeCmdBuf_txDone (p i : Nat) (n : Width) (v : Word) (s : State) :
    (writeCmdBuf p i n v s).txDone = s.txDone := rfl
@[simp] theorem writeCmdBuf_dlMode (p i : Nat) (n : Width) (v : Word) (s : State) :
    (writeCmdBuf p i n v s).dlMode = s.dlMode := rfl
@[simp] theorem port_writeCmdBuf (p i p' : Nat) (n : Width) (v : Word) (s : State) :
    (writeCmdBuf p i n v s).port p' = s.port p' := rfl

/-- A refused issue cleans nothing up (R104). -/
theorem raiseFail_badCommand (i : Instr) (p : Nat) (s : State) :
    raiseFail i p .badCommand s = complete p .badCommand 0x00#8 0 s := by cases i <;> rfl

/-- A command is accepted, which is no completion, or refused with BAD_COMMAND (R65). -/
theorem issueOf_cases (i : Instr) (p : Nat) (s : State) :
    (∃ x, SameReport (s.port p) x ∧ issueOf i p s = s.setPort p x) ∨
    issueOf i p s = complete p .badCommand 0x00#8 0 s := by
  have haccept (first : Phase) : ∃ x, SameReport (s.port p) x ∧ accept p i first s = s.setPort p x :=
    ⟨{ s.port p with done := false, op := opcodeOf i, phase := first }, ⟨rfl, rfl⟩, rfl⟩
  have hbuffered (first : Phase) : (∃ x, SameReport (s.port p) x ∧ issueBuffered i first p s = s.setPort p x) ∨
      issueBuffered i first p s = complete p .badCommand 0x00#8 0 s := by
    rcases issueBuffered_cases i first p s with ⟨_, e⟩ | ⟨_, e⟩ <;> rw [e]
    · exact .inr (raiseFail_badCommand i p s)
    · exact .inl (haccept first)
  cases i with
  | stuff => exact hbuffered .exec
  | destuff => exact hbuffered .exec
  | cmdReply => exact hbuffered .tokenWait
  | cmdNoreply => exact hbuffered .build
  | tlmReq => exact .inl (haccept .tokenWait)
  | dlEnter => exact .inl (haccept .tokenWait)
  | dlRecv =>
    simp only [issueOf, issueDlRecv]
    split
    · obtain ⟨x, hsame, hx⟩ := haccept .dlSeekStart
      rw [hx, updPort_setPort]
      refine .inl ⟨_, ?_, rfl⟩
      exact { hsame with }
    · exact .inr (raiseFail_badCommand .dlRecv p s)
  | dlExit =>
    rcases issueInSession_cases .dlExit .exec p s with ⟨_, e⟩ | ⟨_, e⟩ <;> simp only [issueOf, e]
    · exact .inl (haccept .exec)
    · exact .inr (raiseFail_badCommand .dlExit p s)

/-- A write to a window other than CMD is answered, changes registers or a flag, or stores its lanes (R64). -/
theorem HostStep.of_writeWindow (a : Nat) (n : Width) (v : Word) (s : State) :
    HostStep a n s (writeWindow (a / 0x1000) (a % 0x1000) n v { s with resp := .written }) := by
  unfold writeWindow
  split
  · split <;> exact .registers .written s.sel ⟨rfl, rfl⟩
  split
  · exact .registers .written s.sel ⟨rfl, rfl⟩
  split
  · exact .overflow .written _
  split
  · next hwindow =>
    split
    · exact .registers .written s.sel ⟨rfl, rfl⟩
    · next hidle => exact .stored .written v hwindow.1 hwindow.2 (Bool.eq_false_of_not_eq_true hidle)
  · exact .answered .written

theorem HostStep.of_hostWrite {a : Nat} {n : Width} {v : Word} {s t : State} (ht : hostWrite a n v s = .next t) :
    HostStep a n s t := by
  rcases hostWrite_cases a n v s with ⟨_, e⟩ | ⟨_, _, _, e⟩ | ⟨hlegal, hcmd, hidle, e⟩ | ⟨_, _, e⟩
  · cases e.symm.trans ht
    exact .answered .busError
  · cases e.symm.trans ht
    exact .registers .written s.sel ⟨rfl, rfl⟩
  · rcases issue_cases (a / 0x1000) v { s with resp := .written } with ⟨i, _, e'⟩ | ⟨_, _, e'⟩
    · cases (e.trans e').symm.trans ht
      rcases issueOf_cases i (a / 0x1000) (State.select { s with resp := .written } (a / 0x1000) .issue) with
        ⟨x, hsame, hx⟩ | hx
      · rw [hx]; exact .registers .written _ hsame
      · rw [hx]; exact .rejected .written _ hlegal hcmd hidle
    · cases (e.trans e').symm.trans ht
      exact .rejected .written s.sel hlegal hcmd hidle
  · cases e.symm.trans ht
    exact .of_writeWindow a n v s

namespace HostStep

variable {a : Nat} {n : Width} {s t : State}

theorem q_eq (h : HostStep a n s t) : t.q = s.q := by cases h <;> simp
theorem token_eq (h : HostStep a n s t) : t.token = s.token := by cases h <;> simp
theorem txDone_eq (h : HostStep a n s t) : t.txDone = s.txDone := by cases h <;> simp
theorem dlMode_eq (h : HostStep a n s t) : t.dlMode = s.dlMode := by cases h <;> simp

/-- A host write stores bytes only in the CMD_BUF of an idle port, at the addresses that it covers (R31, R40). -/
theorem byteAt_cases (h : HostStep a n s t) (x : Nat) : t.byteAt x = s.byteAt x ∨
    (s.busy (a / 0x1000) = false ∧ 0x400 ≤ a % 0x1000 ∧ a ≤ x ∧ x < a + n.bytes ∧
      x < cmdBufAddr (a / 0x1000) 0 + s.cfg.cmdCap) := by
  cases h with
  | stored r v hlow hhigh hidle =>
    rw [or_iff_not_imp_right]
    intro hout
    refine byteAt_writeCmdBuf_outside (s := { s with resp := r }) fun k hk hcap hx => hout ⟨hidle, hlow, ?_⟩
    have hcap : a % 0x1000 - 0x400 + k < s.cfg.cmdCap := hcap
    simp only [cmdBufAddr] at hx ⊢
    omega
  | _ => exact .inl rfl

/-- A host write leaves the report of every port, or is a CMD write that ends with BAD_COMMAND (R65, R67). -/
theorem report_cases (h : HostStep a n s t) (hs : Sound s) (p : Nat) :
    SameReport (s.port p) (t.port p) ∨
    (a = p * 0x1000 ∧ n = .four ∧ s.busy p = false ∧ (t.port p).phase = .idle ∧ (t.port p).done = true ∧
      (t.port p).result.code = .badCommand ∧ (t.port p).seq = (s.port p).seq) := by
  cases h with
  | @registers r c x hsame =>
    left
    rcases port_setPort_cases { s with resp := r, sel := c } (a / 0x1000) p x with e | ⟨rfl, e⟩
    · rw [e]; exact .refl _
    · rw [e]; exact hsame
  | rejected r c hlegal hcmd hidle =>
    by_cases hp : p = a / 0x1000
    · subst hp
      have hlt : a / 0x1000 < s.ports.length := hs.2.1 ▸ port_lt_of_legalAccess hlegal
      have hfour : n = .four := by
        by_contra hne
        simp [illegalAccess, hcmd, hne] at hlegal
      rw [port_complete (s := { s with resp := r, sel := c }) _ _ _ hlt]
      exact .inr ⟨by omega, hfour, hidle, rfl, rfl, rfl, rfl⟩
    · rw [port_complete_ne _ _ _ hp]
      exact .inl (.refl _)
  | stored => rw [port_writeCmdBuf]; exact .inl (.refl _)
  | answered => exact .inl (.refl _)
  | overflow => exact .inl (.refl _)

end HostStep

/-! ### Every agent's step has one of these forms -/

/-- Everything that the agent's step e can do in state s. -/
inductive AgentStep (s : State) : Event → State → Prop
  | read (a : Nat) (n : Width) (r : Response) : AgentStep s (.hostRead a n) { s with resp := r }
  | write {a : Nat} {n : Width} {v : Word} {t : State} (h : HostStep a n s t) : AgentStep s (.hostWrite a n v) t
  /-- A step that is not enabled, of an idle port (R66, R74; log 5). -/
  | noOperation {e : Event} {p : Nat} (he : e = .engine p ∨ e = .timeout p) : AgentStep s e s
  | operation {i : Instr} {p : Nat} {act : Act} {e : Event} {t : State} (hbusy : s.busy p = true)
      (hop : decodeOpcode (s.port p).op = some i) (h : OpStep i p (s.select p act) e t) : AgentStep s e t
  | push (b : Byte) : AgentStep s (.rxPush b) (push b s)
  | completion : AgentStep s .txComplete (txCompletion s)
  | reset : AgentStep s .reset (resetBlock s)

theorem AgentStep.of_perform {e : Event} {s t : State} (ht : perform e s = .next t) : AgentStep s e t := by
  cases e with
  | hostRead a n =>
    cases ht
    unfold hostRead
    split
    · exact .read a n _
    · exact .read a n _
  | hostWrite a n v => exact .write (.of_hostWrite ht)
  | engine p =>
    rcases operationStep_cases .engine p s with ⟨i, hbusy, hop, e⟩ | ⟨_, e⟩ <;> cases e.symm.trans ht
    · exact .operation hbusy hop (.of_engineOf i (lt_length_of_busy hbusy))
    · exact .noOperation (.inl rfl)
  | rxPush b =>
    cases ht
    exact .push b
  | txComplete =>
    simp only [perform] at ht
    split at ht
    · cases ht
    · cases ht
      exact .completion
  | timeout p =>
    rcases operationStep_cases .timeout p s with ⟨i, hbusy, hop, e⟩ | ⟨_, e⟩ <;> cases e.symm.trans ht
    · exact .operation hbusy hop (.of_timeout i p _)
    · exact .noOperation (.inr rfl)
  | reset =>
    cases ht
    exact .reset

/-- Every step that answers a next state is the step of the agent that comes next. -/
theorem AgentStep.of_step {s t : State} (ht : step s = .next t) : AgentStep (afterDraw s) (nextEvent s) t := by
  rcases step_cases s with ⟨_, e⟩ | ⟨_, e⟩
  · exact .of_perform (e.symm.trans ht)
  · rw [e] at ht; cases ht

/-- Drawing the next agent step changes only what the agents' order is made of. -/
theorem afterDraw_eq (s : State) : ∃ sched tick, afterDraw s = { s with sched := sched, tick := tick } := by
  rcases afterDraw_cases s with ⟨_, rest, _, e⟩ | ⟨_, e⟩
  · exact ⟨rest, s.tick, e⟩
  · exact ⟨s.sched, s.tick + 1, e⟩

theorem Sound.operation {s : State} {p : Nat} {i : Instr} (h : Sound s) (hbusy : s.busy p = true)
    (hop : decodeOpcode (s.port p).op = some i) : SoundApart p s ∧ InProgress s p i (s.port p) := by
  obtain ⟨j, hop', hapart, hi⟩ := h.inProgress_of_busy hbusy
  obtain rfl : i = j := Option.some.inj (hop.symm.trans hop')
  exact ⟨hapart, hi⟩

end Sys2Proof.Machine
end

/-! ## The rules of 10_state.md about reset and every step -/

section
namespace Sys2Proof.Machine

/-! ### The reset state -/

/-- Settles O43: the reset state has the values of R36, and TXLOG is empty (log 9). -/
theorem resetStateIsSound : Obligations.ResetStateIsSound := fun _ hc =>
  sound_of_reset_values hc rfl rfl rfl rfl rfl fun _ hf => absurd hf List.not_mem_nil

/-! ### A port at rest is not BUSY -/

theorem busy_of_idle {s : State} {p : Nat} (h : (s.port p).phase = .idle) : s.busy p = false := by
  simp [State.busy, h]

namespace AgentStep

variable {e : Event} {s t : State}

/-! ### G.TXDONE -/

theorem txDone_cases (h : AgentStep s e t) : t.txDone = s.txDone ∨ (t.txDone = true ∧ e = .txComplete) ∨
    (t.txDone = false ∧ ((∃ p, e = .engine p ∧ (s.port p).phase = .txWait) ∨ e = .reset)) := by
  cases h with
  | read => exact .inl rfl
  | write h => exact .inl h.txDone_eq
  | noOperation => exact .inl rfl
  | operation _ _ h =>
    exact h.txDone_cases.imp id fun ⟨hdone, he, hph⟩ => .inr ⟨hdone, .inl ⟨_, he, hph⟩⟩
  | push b => exact .inl (push_txDone b s)
  | completion => exact .inr (.inl ⟨rfl, rfl⟩)
  | reset => exact .inr (.inr ⟨rfl, .inr rfl⟩)

/-! ### Q, the token and the session -/

/-- The changes of Q (R68 to R70). -/
theorem q_cases (h : AgentStep s e t) (hs : Sound s) : t.q = s.q ∨ (∃ b, e = .rxPush b ∧ t.q = s.q ++ [b]) ∨
    (∃ p b, e = .engine p ∧ s.token = { held := true, owner := p } ∧ s.q = b :: t.q) ∨
    (∃ p, (e = .engine p ∨ e = .timeout p) ∧ s.token = { held := true, owner := p } ∧
      t.q = [] ∧ t.token = { held := false, owner := 0 }) ∨
    (e = .reset ∧ t.q = []) := by
  cases h with
  | read => exact .inl rfl
  | write h => exact .inl h.q_eq
  | noOperation => exact .inl rfl
  | @operation i p act _ _ hbusy hop h =>
    obtain ⟨_, hi⟩ := hs.operation hbusy hop
    cases h.sharedEffect { hi with } with
    | keeps _ _ hq => exact hq.imp id fun ⟨he, hown, b, hb⟩ => .inr (.inl ⟨p, b, he, hown, hb⟩)
    | acquires _ _ _ _ hq => exact .inl hq
    | releases he hown htoken hq => exact .inr (.inr (.inr (.inl ⟨p, he, hown, hq, htoken⟩)))
  | push b =>
    rcases push_cases b s with ⟨_, e⟩ | ⟨_, e⟩ <;> rw [e]
    · exact .inr (.inl ⟨b, rfl, rfl⟩)
    · exact .inl rfl
  | completion => exact .inl rfl
  | reset => exact .inr (.inr (.inr (.inr ⟨rfl, rfl⟩)))

/-- The changes of the token and the session (R19, R71, R104). -/
theorem session_cases (h : AgentStep s e t) (hs : Sound s) :
    (t.token = s.token ∧ t.dlMode = s.dlMode) ∨
    (∃ p, e = .engine p ∧ s.token.held = false ∧ t.token = { held := true, owner := p } ∧
      (t.dlMode = s.dlMode ∨ (s.port p).op = opcodeOf .dlEnter)) ∨
    (∃ p, s.token = { held := true, owner := p } ∧ t.token = { held := false, owner := 0 } ∧ t.dlMode = false ∧
      (s.dlMode = false ∨ (e = .engine p ∧ (s.port p).op = opcodeOf .dlExit))) ∨
    (e = .reset ∧ t.dlMode = false) := by
  cases h with
  | read => exact .inl ⟨rfl, rfl⟩
  | write h => exact .inl ⟨h.token_eq, h.dlMode_eq⟩
  | noOperation => exact .inl ⟨rfl, rfl⟩
  | @operation i p act _ _ hbusy hop h =>
    obtain ⟨_, hi⟩ := hs.operation hbusy hop
    have hop_eq {j : Instr} (hij : i = j) : (s.port p).op = opcodeOf j := hij ▸ hi.op_eq
    cases h.sharedEffect { hi with } with
    | keeps htoken hmode _ => exact .inl ⟨htoken, hmode⟩
    | acquires he hfree htoken hmode _ => exact .inr (.inl ⟨p, he, hfree, htoken, hmode.imp id hop_eq⟩)
    | releases _ hown htoken _ hmode hexit =>
      exact .inr (.inr (.inl ⟨p, hown, htoken, hmode, hexit.imp id fun ⟨he, hi⟩ => ⟨he, hop_eq hi⟩⟩))
  | push b => exact .inl ⟨push_token b s, push_dlMode b s⟩
  | completion => exact .inl ⟨rfl, rfl⟩
  | reset => exact .inr (.inr (.inr ⟨rfl, rfl⟩))

/-! ### The report and the buffers of a port -/

/-- The changes of RESULT and SEQ of port p: none, a completion of its operation, a refused command, or reset (R67). -/
theorem report_cases (h : AgentStep s e t) (hs : Sound s) (p : Nat) :
    SameReport (s.port p) (t.port p) ∨
    (∃ i, s.busy p = true ∧ (s.port p).op = opcodeOf i ∧ OpStep.Completes i p e (s.port p) (t.port p)) ∨
    ((∃ w, e = .hostWrite (p * 0x1000) .four w) ∧ s.busy p = false ∧ (t.port p).phase = .idle ∧
      (t.port p).done = true ∧ (t.port p).result.code = .badCommand ∧ (t.port p).seq = (s.port p).seq) ∨
    e = .reset := by
  cases h with
  | read => exact .inl (.refl _)
  | @write a n v _ h =>
    rcases h.report_cases hs p with hsame | ⟨rfl, rfl, hrejected⟩
    · exact .inl hsame
    · exact .inr (.inr (.inl ⟨⟨v, rfl⟩, hrejected⟩))
  | noOperation => exact .inl (.refl _)
  | @operation i p' act _ _ hbusy hop h =>
    by_cases hp : p = p'
    · subst hp
      obtain ⟨_, hi⟩ := hs.operation hbusy hop
      exact (h.report_cases (lt_length_of_busy hbusy)).imp id fun hdone => .inl ⟨i, hbusy, hi.op_eq, hdone⟩
    · rw [h.port_ne hp]
      exact .inl (.refl _)
  | push b =>
    rw [port_push]
    exact .inl (.refl _)
  | completion => exact .inl (.refl _)
  | reset => exact .inr (.inr (.inr rfl))

/-- The changes of a byte of CMD_BUF or OUT_BUF: none, a host write that covers it, in the CMD_BUF of an idle port, a
success that delivers it, or reset (R31, R32). -/
theorem byteAt_cases (h : AgentStep s e t) (hs : Sound s) (x : Nat) :
    t.byteAt x = s.byteAt x ∨
    (∃ a n v, e = .hostWrite a n v ∧ s.busy (a / 0x1000) = false ∧ 0x400 ≤ a % 0x1000 ∧ a ≤ x ∧
      x < a + n.bytes ∧ x < cmdBufAddr (a / 0x1000) 0 + s.cfg.cmdCap) ∨
    (∃ p len, e = .engine p ∧ s.busy p = true ∧ t.busy p = false ∧ (t.port p).result.code = .ok ∧
      (t.port p).result.length.toNat = len ∧ len ≤ s.cfg.outCap ∧ outBufAddr p 0 ≤ x ∧
      x < outBufAddr p 0 + len) ∨
    e = .reset := by
  cases h with
  | read => exact .inl rfl
  | @write a n v _ h => exact (h.byteAt_cases x).imp id fun hstored => .inl ⟨a, n, v, rfl, hstored⟩
  | noOperation => exact .inl rfl
  | @operation i p act _ _ hbusy hop h =>
    obtain ⟨hapart, hi⟩ := hs.operation hbusy hop
    rcases h.byteAt_cases (lt_length_of_busy hbusy) x with
      hsame | ⟨he, hlast, hidle, hcode, len, hlimit, hlength, hge, hlt⟩
    · exact .inl hsame
    · obtain ⟨_, _, _, _, _, _, _, _, _, ⟨_, hcap⟩, _⟩ := (legal_iff s.cfg).mp hapart.legal
      have hlen : len ≤ s.cfg.outCap := Nat.le_trans hlimit (hi.outLimit_le hapart.legal hlast)
      have hnat : (t.port p).result.length.toNat = len := by
        rw [hlength, BitVec.toNat_ofNat]
        exact Nat.mod_eq_of_lt (by omega)
      exact .inr (.inr (.inl ⟨p, len, he, hbusy, busy_of_idle hidle, hcode, hnat, hlen, hge, hlt⟩))
  | push b => exact .inl (byteAt_push s b x)
  | completion => exact .inl rfl
  | reset => exact .inr (.inr (.inr rfl))

end AgentStep

/-! ### The statements about `step` -/

/-- A step is the next agent's step from a sound state that differs from s in the agents' order alone. -/
theorem agentStep_of_sound_step {s t : State} (h : Sound s) (ht : step s = .next t) :
    ∃ sched tick, Sound { s with sched := sched, tick := tick } ∧
      AgentStep { s with sched := sched, tick := tick } (nextEvent s) t := by
  obtain ⟨sched, tick, hdraw⟩ := afterDraw_eq s
  have hstep := AgentStep.of_step ht
  rw [hdraw] at hstep
  exact ⟨sched, tick, h, hstep⟩

/-- Settles O47: of the agents' steps only a completion, a TX_WAIT step and reset write the signal. -/
theorem txDoneChangesOnlyByCompletionAndConsumption : Obligations.TxDoneChangesOnlyByCompletionAndConsumption := by
  intro s t ht hne
  have hstep := AgentStep.of_step ht
  obtain ⟨_, _, hdraw⟩ := afterDraw_eq s
  rw [hdraw] at hstep
  exact hstep.txDone_cases.resolve_left hne

/-- Settles O45: a port that pops or drains is in a phase that holds the token. -/
theorem queueChangesOnlyByPushPopAndDrain : Obligations.QueueChangesOnlyByPushPopAndDrain := by
  intro s t h ht hne
  obtain ⟨_, _, hs, hstep⟩ := agentStep_of_sound_step h ht
  exact (hstep.q_cases hs).resolve_left hne

/-- Settles O48: the token moves only where a session begins or ends, or where none is open. -/
theorem sessionLastsFromEnterToExit : Obligations.SessionLastsFromEnterToExit := by
  intro s t h ht
  have hheld : t.dlMode = true → t.token.held = true := by
    obtain ⟨_, _, ⟨_, _, _, hheld, _⟩, _⟩ := everyStepKeepsSoundness s t h ht
    exact hheld
  obtain ⟨_, _, hshared, _⟩ := id h
  obtain ⟨_, _, hs, hstep⟩ := agentStep_of_sound_step h ht
  refine ⟨hheld, ?_⟩
  rcases hstep.session_cases hs with
    ⟨htoken, hmode⟩ | ⟨p, he, hfree, htoken, henter⟩ | ⟨p, hown, htoken, hmode, hexit⟩ | ⟨he, hmode⟩
  · have hmode : t.dlMode = s.dlMode := hmode
    refine ⟨fun hs ht => ?_, fun hs ht => ?_, fun _ _ => htoken⟩
    · simp [hmode, hs] at ht
    · simp [hmode, hs] at ht
  · have hclosed : s.dlMode = false := hshared.dlMode_of_free hfree
    refine ⟨fun _ hopen => ⟨p, he, henter.resolve_left fun hsame => ?_, hfree, htoken⟩, ?_, ?_⟩
    · exact absurd (hopen.symm.trans (hsame.trans hclosed)) (by decide)
    · simp [hclosed]
    · simp [hclosed]
  · refine ⟨?_, fun hopen _ => .inr ⟨p, ?_⟩, ?_⟩
    · simp [hmode]
    · have hlast := hexit.resolve_left fun hclosed => absurd (hopen.symm.trans hclosed) (by decide)
      exact ⟨hlast.1, hlast.2, hown, htoken⟩
    · simp [hmode]
  · exact ⟨by simp [hmode], fun _ _ => .inl he, by simp [hmode]⟩

/-- Settles O50: only a completion and reset write RESULT or SEQ. -/
theorem resultAndSeqChangeOnlyAtCompletion : Obligations.ResultAndSeqChangeOnlyAtCompletion := by
  intro s t p h ht hreset
  obtain ⟨_, _, hs, hstep⟩ := agentStep_of_sound_step h ht
  rcases hstep.report_cases hs p with
    hsame | ⟨i, hbusy, hop, he, hidle, hdone, hseq⟩ | ⟨hw, hbusy, hidle, hdone, hcode, hseq⟩ | he
  · exact ⟨fun hne => absurd hsame.result hne, fun hne => absurd hsame.seq hne⟩
  · refine ⟨fun _ => ⟨hidle, hdone, .inl ⟨he, hbusy, busy_of_idle hidle⟩⟩, fun hne => ?_⟩
    obtain ⟨heng, rfl, hph, hcode⟩ := hseq.resolve_left hne
    exact ⟨heng, hop, hph, hidle, hcode⟩
  · exact ⟨fun _ => ⟨hidle, hdone, .inr ⟨hbusy, hcode, hw⟩⟩, fun hne => absurd hseq hne⟩
  · exact absurd he hreset

/-- Settles O51: the bytes that a host write stores are those of one CMD_BUF, and the bytes that a success stores are
those of one OUT_BUF; the windows of the ports do not overlap. -/
theorem buffersChangeOnlyByHostWriteAndSuccess : Obligations.BuffersChangeOnlyByHostWriteAndSuccess := by
  intro s t p h ht hreset hp
  obtain ⟨hlegal, _⟩ := id h
  obtain ⟨_, _, _, _, _, _, _, _, ⟨_, hcmdCap⟩, ⟨_, houtCap⟩, _⟩ := (legal_iff s.cfg).mp hlegal
  obtain ⟨_, _, hs, hstep⟩ := agentStep_of_sound_step h ht
  constructor
  · intro k hk hne
    rcases hstep.byteAt_cases hs (cmdBufAddr p k) with
      hsame | ⟨a, n, v, he, hidle, hlow, hge, hlt, hcap⟩ | ⟨p', len, _, _, _, _, _, hlen, hge, hlt⟩ | he
    · exact absurd hsame hne
    · have hcap : cmdBufAddr p k < cmdBufAddr (a / 0x1000) 0 + s.cfg.cmdCap := hcap
      have hport : a / 0x1000 = p := by simp only [cmdBufAddr] at hge hcap; omega
      exact ⟨hport ▸ hidle, a, n, v, he, hge, hlt⟩
    · have hlen : len ≤ s.cfg.outCap := hlen
      simp only [cmdBufAddr, outBufAddr] at hge hlt
      omega
    · exact absurd he hreset
  · intro k hk hne
    rcases hstep.byteAt_cases hs (outBufAddr p k) with
      hsame | ⟨a, n, v, _, _, hlow, hge, hlt, hcap⟩ |
      ⟨p', len, he, hbusy, hidle, hcode, hlength, hlen, hge, hlt⟩ | he
    · exact absurd hsame hne
    · have hcap : outBufAddr p k < cmdBufAddr (a / 0x1000) 0 + s.cfg.cmdCap := hcap
      simp only [cmdBufAddr, outBufAddr] at hge hcap
      omega
    · have hlen : len ≤ s.cfg.outCap := hlen
      simp only [outBufAddr] at hge hlt
      obtain rfl : p' = p := by omega
      exact ⟨he, hbusy, hidle, hcode, by omega⟩
    · exact absurd he hreset

end Sys2Proof.Machine
end

/-! ## Illegal accesses and repeated accesses (R41, R43) -/

section
namespace Sys2Proof.Machine

/-! ### Illegal accesses -/

/-- The cases of R41, as R37 to R40 give them. -/
theorem illegalAccess_iff {c : Config} {a : Nat} {n : Width} : illegalAccess c a n = true ↔
    c.nPorts * 0x1000 ≤ a ∨ (a % 0x1000 < 0x400 ∧ (n ≠ .four ∨ a % 4 ≠ 0)) ∨
      (0x400 ≤ a % 0x1000 ∧ a % n.bytes ≠ 0) := by
  rw [illegalAccess, Bool.or_eq_true, decide_eq_true_iff]
  refine or_congr_right ?_
  by_cases hreg : a % 0x1000 < 0x400
  · simp [hreg]
  · simp [hreg, Nat.not_lt.mp hreg]

theorem hostRead_of_illegal {s : State} {a : Nat} {n : Width} (h : illegalAccess s.cfg a n = true) :
    hostRead a n s = { s with resp := .busError } := if_pos h

theorem hostRead_of_legal {s : State} {a : Nat} {n : Width} (h : illegalAccess s.cfg a n = false) :
    hostRead a n s = { s with resp := .data (s.readData a n) } := if_neg (Bool.eq_false_iff.mp h)

theorem hostWrite_of_illegal {s : State} {a : Nat} {n : Width} (h : illegalAccess s.cfg a n = true) (v : Word) :
    hostWrite a n v s = .next { s with resp := .busError } := if_pos h

/-- Settles O30: both accesses answer BUS_ERROR where the address or the width is illegal. -/
theorem illegalAccessGetsABusError : Obligations.IllegalAccessGetsABusError := by
  intro s a n v rest hlegal hbad hsched
  have hill : illegalAccess s.cfg a n = true := illegalAccess_iff.mpr hbad
  rcases hsched with hread | hwrite
  · rw [step_scheduled hlegal hread]
    exact congrArg Host.Outcome.next (hostRead_of_illegal (s := { s with sched := rest }) hill)
  · rw [step_scheduled hlegal hwrite]
    exact hostWrite_of_illegal (s := { s with sched := rest }) hill v

/-! ### Repeated reads -/

/-- A read changes the answer alone (R43). -/
theorem hostRead_eq (a : Nat) (n : Width) (s : State) :
    hostRead a n s = { s with resp := (hostRead a n s).resp } := by
  cases h : illegalAccess s.cfg a n
  · rw [hostRead_of_legal h]
  · rw [hostRead_of_illegal h]

/-- What a read answers does not depend on the answer before it. -/
theorem hostRead_idem (a : Nat) (n : Width) (s : State) : hostRead a n (hostRead a n s) = hostRead a n s := by
  cases h : illegalAccess s.cfg a n
  · rw [hostRead_of_legal h]
    exact hostRead_of_legal (s := { s with resp := .data (s.readData a n) }) h
  · rw [hostRead_of_illegal h]
    exact hostRead_of_illegal (s := { s with resp := .busError }) h

/-- A step placed in front of the schedule is performed on the state without it. -/
theorem step_placed {t : State} {e : Event} {rest : List Event} (hlegal : t.cfg.legal = true) (h : t.sched = rest) :
    step { t with sched := e :: rest } = perform e t := by
  subst h
  exact step_scheduled (s := { t with sched := e :: t.sched }) hlegal rfl

/-- Settles O31: the read placed again finds the state of the first one, which it leaves. -/
theorem readsHaveNoSideEffect : Obligations.ReadsHaveNoSideEffect := by
  intro s a n rest hlegal hsched
  have hread := hostRead_eq a n { s with sched := rest }
  have hlegal' : (hostRead a n { s with sched := rest }).cfg.legal = true := by rw [hread]; exact hlegal
  refine ⟨hostRead a n { s with sched := rest }, step_scheduled hlegal hsched, hread, ?_⟩
  rw [step_placed hlegal' (congrArg State.sched hread)]
  exact congrArg Host.Outcome.next (hostRead_idem a n { s with sched := rest })

/-! ### Bytes written twice -/

/-- A byte that is read stands in the memory. -/
theorem Memory.mem_of_read {m : Memory} {a : Nat} {b : Byte} (h : m.read a = some b) : (a, b) ∈ m := by
  induction m with
  | nil => cases h
  | cons d m ih =>
    obtain ⟨k, x⟩ := d
    rw [Memory.read] at h
    split at h
    · next hk =>
      cases h
      exact hk ▸ List.mem_cons_self
    · exact List.mem_cons_of_mem _ (ih h)

/-- Writing the byte that is there already leaves a memory in canonical form as it is. -/
theorem Memory.write_of_read {m : Memory} {a : Nat} {b : Byte} (h : m.wf) (hread : m.read a = some b) :
    m.write a b = m := by
  induction m with
  | nil => cases hread
  | cons d m ih =>
    obtain ⟨k, x⟩ := d
    obtain ⟨hrising, htail⟩ := List.pairwise_cons.mp h
    rw [Memory.read] at hread
    split at hread
    · next hk =>
      cases hread
      simp [Memory.write, hk]
    · next hk =>
      have hlt : k < a := hrising _ (Memory.mem_of_read hread)
      rw [Memory.write, if_neg (Nat.not_lt.mpr hlt.le), if_neg hlt.ne', ih htail hread]

theorem Memory.writeBytes_of_read {m : Memory} {a : Nat} {bs : List Byte} (h : m.wf)
    (hread : ∀ (k : Nat) (hk : k < bs.length), m.read (a + k) = some bs[k]) : m.writeBytes a bs = m := by
  induction bs generalizing a with
  | nil => rfl
  | cons b bs ih =>
    have hhead : m.read a = some b := hread 0 (Nat.zero_lt_succ _)
    rw [Memory.writeBytes, Memory.write_of_read h hhead]
    refine ih fun k hk => ?_
    rw [Nat.add_assoc, Nat.add_comm 1]
    exact hread (k + 1) (Nat.succ_lt_succ hk)

/-- The canonical form makes a repeated write of the same bytes the identity, not only the same to its readers. -/
theorem Memory.writeBytes_idem {m : Memory} (h : m.wf) (a : Nat) (bs : List Byte) :
    (m.writeBytes a bs).writeBytes a bs = m.writeBytes a bs :=
  Memory.writeBytes_of_read (Memory.writeBytes_wf a bs h) fun k hk => Memory.read_writeBytes_inside m a k bs hk

/-! ### Repeated writes -/

theorem updPort_idem (s : State) (p : Nat) {f : Port → Port} (hf : ∀ x, f (f x) = f x) :
    (s.updPort p f).updPort p f = s.updPort p f := by
  rw [updPort_eq s, updPort_setPort, hf]

/-- BUSY follows PHASE alone (R25). -/
theorem busy_updPort (s : State) (p : Nat) {f : Port → Port} (hf : ∀ x, (f x).phase = x.phase) :
    (s.updPort p f).busy p = s.busy p := by
  rw [State.busy, State.busy, updPort_eq]
  rcases port_setPort_cases s p p (f (s.port p)) with e | ⟨_, e⟩ <;> rw [e]
  rw [hf]

@[simp] theorem busy_ignoreWrite (p : Nat) (s : State) : (ignoreWrite p s).busy p = s.busy p :=
  busy_updPort s p fun _ => rfl

@[simp] theorem busy_writeArg (p : Nat) (v : Word) (s : State) : (writeArg p v s).busy p = s.busy p :=
  busy_updPort s p fun _ => rfl

@[simp] theorem busy_writeCmdBuf (p i : Nat) (n : Width) (v : Word) (s : State) :
    (writeCmdBuf p i n v s).busy p = s.busy p := rfl

theorem ignoreWrite_idem (p : Nat) (s : State) : ignoreWrite p (ignoreWrite p s) = ignoreWrite p s :=
  updPort_idem s p fun _ => rfl

theorem writeArg_idem (p : Nat) (v : Word) (s : State) : writeArg p v (writeArg p v s) = writeArg p v s :=
  updPort_idem s p fun _ => rfl

/-- A flag cleared twice is cleared once. -/
theorem writeStatus_idem (p : Nat) (v : Word) (s : State) : writeStatus p v (writeStatus p v s) = writeStatus p v s :=
  updPort_idem s p fun _ => by simp

theorem writeGstatus_idem (v : Word) (s : State) : writeGstatus v (writeGstatus v s) = writeGstatus v s := by
  simp [writeGstatus]

theorem writeCmdBuf_idem {s : State} (h : s.mem.wf) (p i : Nat) (n : Width) (v : Word) :
    writeCmdBuf p i n v (writeCmdBuf p i n v s) = writeCmdBuf p i n v s :=
  congrArg (fun m => { s with mem := m }) (Memory.writeBytes_idem h (cmdBufAddr p i) (storedLanes s.cfg i n v))

/-- Where BUSY decides whether a write is ignored, the second write meets the BUSY of the first. -/
theorem ignoreWhileBusy_idem {s t : State} {p : Nat} {write : State → State} (hbusy : (write s).busy p = s.busy p)
    (hidem : write (write s) = write s) (ht : (if s.busy p then ignoreWrite p s else write s) = t) :
    (if t.busy p then ignoreWrite p t else write t) = t := by
  subst ht
  cases h : s.busy p
  · rw [if_neg Bool.false_ne_true, hbusy, h, if_neg Bool.false_ne_true, hidem]
  · rw [if_pos rfl, busy_ignoreWrite, h, if_pos rfl, ignoreWrite_idem]

/-- Which of its five actions a window write is, whatever the state (R64). -/
theorem writeWindow_cases (p o : Nat) (n : Width) (v : Word) :
    (∀ s, writeWindow p o n v s = if s.busy p then ignoreWrite p s else writeArg p v s) ∨
    (∀ s, writeWindow p o n v s = writeStatus p v s) ∨
    (∀ s, writeWindow p o n v s = writeGstatus v s) ∨
    (∀ s, writeWindow p o n v s = if s.busy p then ignoreWrite p s else writeCmdBuf p (o - 0x400) n v s) ∨
    (∀ s, writeWindow p o n v s = s) := by
  by_cases harg : o = 0x004
  · exact .inl fun _ => if_pos harg
  by_cases hstatus : o = 0x008
  · exact .inr (.inl fun _ => (if_neg harg).trans (if_pos hstatus))
  by_cases hgstatus : o = 0x014
  · exact .inr (.inr (.inl fun _ => (if_neg harg).trans ((if_neg hstatus).trans (if_pos hgstatus))))
  have hlast (s : State) : writeWindow p o n v s = if 0x400 ≤ o ∧ o < 0x800 then
      (if s.busy p then ignoreWrite p s else writeCmdBuf p (o - 0x400) n v s) else s :=
    (if_neg harg).trans ((if_neg hstatus).trans (if_neg hgstatus))
  by_cases hbuf : 0x400 ≤ o ∧ o < 0x800
  · exact .inr (.inr (.inr (.inl fun s => (hlast s).trans (if_pos hbuf))))
  · exact .inr (.inr (.inr (.inr fun s => (hlast s).trans (if_neg hbuf))))

theorem writeWindow_idem {s : State} (h : s.mem.wf) (p o : Nat) (n : Width) (v : Word) :
    writeWindow p o n v (writeWindow p o n v s) = writeWindow p o n v s := by
  rcases writeWindow_cases p o n v with e | e | e | e | e <;> rw [e, e]
  · exact ignoreWhileBusy_idem (busy_writeArg p v s) (writeArg_idem p v s) rfl
  · exact writeStatus_idem p v s
  · exact writeGstatus_idem v s
  · exact ignoreWhileBusy_idem (busy_writeCmdBuf p _ n v s) (writeCmdBuf_idem h p _ n v) rfl

@[simp] theorem writeCmdBuf_cfg (p i : Nat) (n : Width) (v : Word) (s : State) :
    (writeCmdBuf p i n v s).cfg = s.cfg := rfl
@[simp] theorem writeCmdBuf_resp (p i : Nat) (n : Width) (v : Word) (s : State) :
    (writeCmdBuf p i n v s).resp = s.resp := rfl

/-- A window write changes neither the build parameters nor the recorded answer. -/
theorem writeWindow_cfg_resp (p o : Nat) (n : Width) (v : Word) (s : State) :
    (writeWindow p o n v s).cfg = s.cfg ∧ (writeWindow p o n v s).resp = s.resp := by
  rcases writeWindow_cases p o n v with e | e | e | e | e <;> rw [e]
  · split <;> exact ⟨rfl, rfl⟩
  · exact ⟨rfl, rfl⟩
  · exact ⟨rfl, rfl⟩
  · split
    · exact ⟨rfl, rfl⟩
    · exact ⟨writeCmdBuf_cfg .., writeCmdBuf_resp ..⟩
  · exact ⟨rfl, rfl⟩

theorem hostWrite_of_window {s : State} {a : Nat} {n : Width} (h : illegalAccess s.cfg a n = false)
    (hcmd : a % 0x1000 ≠ 0) (v : Word) :
    hostWrite a n v s = .next (writeWindow (a / 0x1000) (a % 0x1000) n v { s with resp := .written }) := by
  rw [hostWrite, if_neg (Bool.eq_false_iff.mp h), if_neg hcmd]

/-- A legal write that its window has taken before, and that changes nothing there, leaves the whole state. -/
theorem hostWrite_of_fixed {t : State} {a : Nat} {n : Width} {v : Word} (h : illegalAccess t.cfg a n = false)
    (hcmd : a % 0x1000 ≠ 0) (hresp : t.resp = .written)
    (hfixed : writeWindow (a / 0x1000) (a % 0x1000) n v t = t) : hostWrite a n v t = .next t := by
  have hanswered : { t with resp := .written } = t := by rw [← hresp]
  rw [hostWrite_of_window h hcmd, hanswered, hfixed]

/-- Settles O32: an illegal write gets its bus error again, a legal one is a window write, which is idempotent. -/
theorem otherWritesCanBeRepeated : Obligations.OtherWritesCanBeRepeated := by
  intro s t a n v ⟨_, _, hshared, _⟩ hcmd ht
  obtain ⟨_, _, hwf, _⟩ := (sharedSound_iff s).mp hshared
  cases hill : illegalAccess s.cfg a n
  case true =>
    cases (hostWrite_of_illegal hill v).symm.trans ht
    exact hostWrite_of_illegal (s := { s with resp := .busError }) hill v
  case false =>
    have hwrite := Host.Outcome.next.inj ((hostWrite_of_window hill hcmd v).symm.trans ht)
    obtain ⟨hcfg, hresp⟩ := writeWindow_cfg_resp (a / 0x1000) (a % 0x1000) n v { s with resp := .written }
    have hidem := writeWindow_idem (s := { s with resp := .written }) hwf (a / 0x1000) (a % 0x1000) n v
    rw [hwrite] at hcfg hresp hidem
    exact hostWrite_of_fixed (by rw [hcfg]; exact hill) hcmd hresp hidem

end Sys2Proof.Machine
end

/-! ## Command words and their operands (R39, R52 to R55) -/

section
namespace Sys2Proof.Machine

/-! ### Words from their parts -/

/-- A word is its RSVD over its OPCODE (R52). -/
theorem reservedField_append_opcodeField (w : Word) : (reservedField w ++ opcodeField w : Word) = w :=
  (BitVec.extractLsb'_append_extractLsb'_eq_extractLsb' rfl).trans BitVec.extractLsb'_eq_self

/-- A word is its four lanes, the lowest the least significant (R39 (a)). -/
theorem wordOfBytes_byteLane (w : Word) :
    wordOfBytes (byteLane w 0) (byteLane w 1) (byteLane w 2) (byteLane w 3) = w := by
  unfold wordOfBytes byteLane
  iterate 3 rw [BitVec.extractLsb'_append_extractLsb'_eq_extractLsb' (by decide)]
  exact BitVec.extractLsb'_eq_self

/-! ### The encoder -/

@[simp] theorem reservedField_encode (i : Instr) : reservedField (encode i) = 0#24 := BitVec.extractLsb'_append_eq_left

@[simp] theorem opcodeField_encode (i : Instr) : opcodeField (encode i) = opcodeOf i :=
  BitVec.extractLsb'_append_eq_right

/-- RSVD and OPCODE are the whole word, so they fix it. -/
theorem eq_encode_iff (w : Word) (i : Instr) : w = encode i ↔ reservedField w = 0#24 ∧ opcodeField w = opcodeOf i := by
  constructor
  · rintro rfl
    exact ⟨reservedField_encode i, opcodeField_encode i⟩
  · rintro ⟨hreserved, hopcode⟩
    rw [← reservedField_append_opcodeField w, hreserved, hopcode]
    rfl

/-! ### The decoder -/

/-- Every row of the map has the opcode of its command (R54). -/
theorem opcode_of_mem_opcodeMap : ∀ row ∈ opcodeMap, row.1 = opcodeOf row.2 := by decide

/-- An opcode selects the one command whose opcode it is (R54). -/
theorem decodeOpcode_eq_some_iff (op : Byte) (i : Instr) : decodeOpcode op = some i ↔ op = opcodeOf i := by
  constructor
  · intro h
    obtain ⟨row, hfind, rfl⟩ := Option.map_eq_some_iff.mp h
    have hop : row.1 = op := by simpa using List.find?_some hfind
    exact hop.symm.trans (opcode_of_mem_opcodeMap row (List.mem_of_find?_eq_some hfind))
  · rintro rfl
    exact decodeOpcode_opcodeOf i

theorem decodeWord_of_reserved {w : Word} (h : reservedField w ≠ 0#24) : decodeWord w = .error .reservedBits := if_neg h

/-- With RSVD = 0 the opcode map decides (R52). -/
theorem decodeWord_of_unreserved {w : Word} (h : reservedField w = 0#24) (i : Instr) :
    decodeWord w = .ok i ↔ decodeOpcode (opcodeField w) = some i := by
  rw [decodeWord, if_pos (show reservedField w = 0 from h)]
  cases decodeOpcode (opcodeField w) <;> simp

theorem decodeWord_eq_ok_iff (w : Word) (i : Instr) :
    decodeWord w = .ok i ↔ reservedField w = 0#24 ∧ opcodeField w = opcodeOf i := by
  by_cases h : reservedField w = 0#24
  · simp [decodeWord_of_unreserved h, decodeOpcode_eq_some_iff, h]
  · simp [decodeWord_of_reserved h, h]

theorem decodeWord_eq_ok_iff_eq_encode (w : Word) (i : Instr) : decodeWord w = .ok i ↔ w = encode i :=
  (decodeWord_eq_ok_iff w i).trans (eq_encode_iff w i).symm

/-! ### Words laid out as bytes -/

/-- Decoding the bytes of a word is decoding the word, the bytes after it left over (R39 (a)). -/
theorem decode_bytesOfWord_append (w : Word) (rest : List Byte) :
    decode (bytesOfWord w ++ rest) = (decodeWord w).map (·, rest) := by
  simp only [bytesOfWord, List.cons_append, List.nil_append, decode, wordOfBytes_byteLane]
  cases decodeWord w <;> rfl

theorem decodeTableWord_eq (nbits n : Nat) : decodeTableWord nbits n = (decodeWord (tableWord nbits n)).toOption := by
  rw [decodeTableWord, ← List.append_nil (bytesOfWord _), decode_bytesOfWord_append]
  cases decodeWord (tableWord nbits n) <;> rfl

/-- A number of the table is read as a command when it is that command's encoding. -/
theorem decodeTableWord_of_encode {nbits n : Nat} {i : Instr} (h : tableWord nbits n = encode i) :
    decodeTableWord nbits n = some i := by
  rw [decodeTableWord_eq, (decodeWord_eq_ok_iff_eq_encode _ i).mpr h]
  rfl

theorem decodeTableWord_of_error {nbits n : Nat} {e : DecodeError} (h : decodeWord (tableWord nbits n) = .error e) :
    decodeTableWord nbits n = none := by
  rw [decodeTableWord_eq, h]
  rfl

/-! ### The statements -/

/-- Settles O1: RSVD is tested first, the opcode map has each command's opcode once, and the two fields are the word. -/
theorem decodeAcceptsExactlyTheOpcodeMap : Obligations.DecodeAcceptsExactlyTheOpcodeMap := fun w =>
  ⟨fun hreserved => ⟨.reservedBits, decodeWord_of_reserved hreserved⟩, decodeWord_eq_ok_iff w,
    decodeWord_eq_ok_iff_eq_encode w⟩

/-- Settles O2: the four bytes make the word again, and the word is the command's encoding. -/
theorem decodeOfEncodedBytesGivesTheCommand : Obligations.DecodeOfEncodedBytesGivesTheCommand := by
  intro i rest _
  rw [decode_bytesOfWord_append, (decodeWord_eq_ok_iff_eq_encode _ i).mpr rfl]
  rfl

/-- Settles O3: eight of the words are encodings; 0x03 is no row of the map, and 0x110 has a bit of RSVD set. -/
theorem wordsOfTheMapDecodeToTheirCommands : Obligations.WordsOfTheMapDecodeToTheirCommands :=
  ⟨decodeTableWord_of_encode (by decide), decodeTableWord_of_encode (by decide), decodeTableWord_of_encode (by decide),
    decodeTableWord_of_encode (by decide), decodeTableWord_of_encode (by decide), decodeTableWord_of_encode (by decide),
    decodeTableWord_of_encode (by decide), decodeTableWord_of_encode (by decide),
    decodeTableWord_of_error (e := .reservedOpcode) (by decide),
    decodeTableWord_of_error (decodeWord_of_reserved (by decide))⟩

/-- Settles O12: LEN and ID are fields of ARG by definition, and the byte operand is a slice of CMD_BUF from 0. -/
theorem operandsComeFromArgAndCmdBuf : Obligations.OperandsComeFromArgAndCmdBuf := by
  intro s p
  refine ⟨rfl, rfl, slice_length (s.cmdBuf p) 0 (s.lenOperand p), fun k hk => ?_⟩
  have hbyte : (s.bytesOperand p)[k] = s.cmdBuf p (0 + k) := slice_getElem (s.cmdBuf p) 0 (s.lenOperand p) k hk
  rwa [Nat.zero_add] at hbyte

end Sys2Proof.Machine
end

/-! ## What a CMD write, an operation's step, a push and a TX completion run (R64 to R68, R73) -/

section
namespace Sys2Proof.Machine

/-- A CMD write to an idle port issues its word (R64, R65). -/
theorem perform_writeCmd_idle {s : State} {p : Nat} (w : Word) (hp : p < s.cfg.nPorts) (hidle : s.busy p = false) :
    perform (.hostWrite (p * 0x1000) .four w) s = issue p w { s with resp := .written } := by
  have hlegal := legalAccess_of_offset (o := 0) (n := .four) hp ⟨by decide, .inl ⟨by decide, rfl, rfl⟩⟩
  rw [← Nat.add_zero (p * 0x1000), perform, hostWrite, hlegal, window_mod (by decide), window_div (by decide), hidle]
  rfl

theorem issue_of_decode {p : Nat} {w : Word} {i : Instr} (s : State) (hw : decodeWord w = .ok i) :
    issue p w s = exec i (s.select p .issue) := by rw [issue, hw]

theorem operationStep_of_busy {s : State} {p : Nat} {i : Instr} (act : Act) (hbusy : s.busy p = true)
    (hop : (s.port p).op = opcodeOf i) : operationStep act p s = exec i (s.select p act) := by
  rw [operationStep, hbusy, hop, decodeOpcode_opcodeOf]
  rfl

theorem operationStep_of_idle {s : State} {p : Nat} (act : Act) (hidle : s.busy p = false) :
    operationStep act p s = .next s := by
  rw [operationStep, hidle]
  rfl

/-- Settles O4: the write goes to CMD of an idle port, which issues the command that the word decodes to. -/
theorem stepRunsTheIssuedCommand : Obligations.StepRunsTheIssuedCommand := by
  intro s p w i rest hlegal hp hidle hsched hw _
  rw [step_scheduled hlegal hsched]
  exact (perform_writeCmd_idle (s := { s with sched := rest }) w hp hidle).trans (issue_of_decode _ hw)

/-- Settles O5: OP is the opcode of the command, and the opcode decodes to it. -/
theorem stepRunsTheOperationInProgress : Obligations.StepRunsTheOperationInProgress := by
  intro s p i rest hlegal hbusy hop
  have hrun (act : Act) := operationStep_of_busy (s := { s with sched := rest }) act hbusy hop
  refine ⟨fun hsched => ?_, fun hsched => ?_⟩
  · rw [step_scheduled hlegal hsched]
    exact hrun .engine
  · rw [step_scheduled hlegal hsched]
    exact hrun .timeout

/-- Settles O40: the two cases of a push exclude each other. -/
theorem pushAppendsOrDropsTheByte : Obligations.PushAppendsOrDropsTheByte := by
  intro s b rest hlegal hsched
  have hstep : step s = .next (push b { s with sched := rest }) := step_scheduled hlegal hsched
  rw [hstep]
  rcases push_cases b { s with sched := rest } with ⟨hroom, e⟩ | ⟨hfull, e⟩
  · have hroom : s.q.length < s.cfg.qDepth := hroom
    exact ⟨fun _ => congrArg _ e, fun hfull => absurd hroom (Nat.not_lt.mpr hfull)⟩
  · have hfull : s.cfg.qDepth ≤ s.q.length := hfull
    exact ⟨fun hroom => absurd hroom (Nat.not_lt.mpr hfull), fun _ => congrArg _ e⟩

/-- Settles O41: with a pending frame the completion is enabled. -/
theorem txCompletionSetsTheSignal : Obligations.TxCompletionSetsTheSignal := by
  intro s rest hlegal hsched hpend
  rw [step_scheduled hlegal hsched]
  exact if_neg (Nat.ne_of_gt hpend)

end Sys2Proof.Machine
end

/-! ## The issue of a command (R55, R65) -/

section
namespace Sys2Proof.Machine

/-- The phase in which an accepted command starts (R65). -/
def firstPhase : Instr → Phase
  | .stuff => .exec
  | .destuff => .exec
  | .cmdReply => .tokenWait
  | .cmdNoreply => .build
  | .tlmReq => .tokenWait
  | .dlEnter => .tokenWait
  | .dlRecv => .dlSeekStart
  | .dlExit => .exec

/-- The registers of a port that has accepted command i: DL_RECV starts with no byte counted (R65, R95). -/
def Port.accepting (i : Instr) (x : Port) : Port :=
  { x with
    done := false, op := opcodeOf i, phase := firstPhase i,
    wcnt := if i = .dlRecv then 0 else x.wcnt, n := if i = .dlRecv then 0 else x.n }

/-- An issue check of R65 that command i fails on port p: its length, or its session. -/
def FailsIssue (s : State) (p : Nat) (i : Instr) : Prop :=
  (readsCmdBuf i = true ∧ s.cfg.cmdCap < s.lenOperand p) ∨
  (inSession i = true ∧ ¬ (s.token = { held := true, owner := p } ∧ s.dlMode = true))

/-- What the issue of a command does: BAD_COMMAND where a check fails, else the acceptance. -/
def Issues (i : Instr) (p : Nat) (s t : State) : Prop :=
  (FailsIssue s p i ∧ t = complete p .badCommand 0x00#8 0 s) ∨
  (¬ FailsIssue s p i ∧ t = s.updPort p (Port.accepting i))

theorem accept_eq_accepting {i : Instr} (p : Nat) (s : State) (hi : i ≠ .dlRecv) :
    accept p i (firstPhase i) s = s.updPort p (Port.accepting i) :=
  congrArg (s.updPort p) (funext fun x => by simp [Port.accepting, hi])

theorem issueBuffered_issues {i : Instr} (p : Nat) (s : State) (hbuf : readsCmdBuf i = true)
    (hsession : inSession i = false) (hi : i ≠ .dlRecv) : Issues i p s (issueBuffered i (firstPhase i) p s) := by
  rcases issueBuffered_cases i (firstPhase i) p s with ⟨hlong, e⟩ | ⟨hfits, e⟩
  · exact .inl ⟨.inl ⟨hbuf, hlong⟩, e.trans (raiseFail_badCommand i p s)⟩
  · refine .inr ⟨?_, e.trans (accept_eq_accepting p s hi)⟩
    simp [FailsIssue, hsession, Nat.not_lt.mpr hfits]

theorem issueAlways_issues {i : Instr} (p : Nat) (s : State) (hbuf : readsCmdBuf i = false)
    (hsession : inSession i = false) (hi : i ≠ .dlRecv) : Issues i p s (issueAlways i (firstPhase i) p s) :=
  .inr ⟨by simp [FailsIssue, hbuf, hsession], accept_eq_accepting p s hi⟩

/-- In its own session a command without bytes fails no check. -/
theorem not_failsIssue_of_ownsSession {s : State} {p : Nat} {i : Instr} (hown : s.ownsSession p = true)
    (hbuf : readsCmdBuf i = false) : ¬ FailsIssue s p i := by
  simp [FailsIssue, hbuf, (ownsSession_iff s p).mp hown]

theorem failsIssue_of_noSession {s : State} {p : Nat} {i : Instr} (hown : ¬ s.ownsSession p = true)
    (hsession : inSession i = true) : FailsIssue s p i :=
  .inr ⟨hsession, mt (ownsSession_iff s p).mpr hown⟩

theorem issueDlRecv_issues (p : Nat) (s : State) : Issues .dlRecv p s (issueDlRecv p s) := by
  unfold issueDlRecv
  split
  · next hown =>
    exact .inr ⟨not_failsIssue_of_ownsSession hown rfl, updPort_setPort s p _ _⟩
  · next hown => exact .inl ⟨failsIssue_of_noSession hown rfl, raiseFail_badCommand .dlRecv p s⟩

theorem issueDlExit_issues (p : Nat) (s : State) : Issues .dlExit p s (issueInSession .dlExit .exec p s) := by
  unfold issueInSession
  split
  · next hown => exact .inr ⟨not_failsIssue_of_ownsSession hown rfl, accept_eq_accepting p s (by decide)⟩
  · next hown => exact .inl ⟨failsIssue_of_noSession hown rfl, raiseFail_badCommand .dlExit p s⟩

/-- Every command is refused exactly where it fails a check (R65). -/
theorem issueOf_issues (i : Instr) (p : Nat) (s : State) : Issues i p s (issueOf i p s) := by
  cases i with
  | stuff => exact issueBuffered_issues p s rfl rfl (by decide)
  | destuff => exact issueBuffered_issues p s rfl rfl (by decide)
  | cmdReply => exact issueBuffered_issues p s rfl rfl (by decide)
  | cmdNoreply => exact issueBuffered_issues p s rfl rfl (by decide)
  | tlmReq => exact issueAlways_issues p s rfl rfl (by decide)
  | dlEnter => exact issueAlways_issues p s rfl rfl (by decide)
  | dlRecv => exact issueDlRecv_issues p s
  | dlExit => exact issueDlExit_issues p s

/-- A word is rejected when it is no command, or a command that fails a check (R55, R65). -/
def Rejects (s : State) (p : Nat) (w : Word) : Prop := ∀ i, decodeWord w = .ok i → FailsIssue s p i

/-- A CMD write to an idle port changes registers of that port alone, sel apart: those of a completion with BAD_COMMAND,
or of an acceptance. -/
theorem issue_updPort (p : Nat) (w : Word) (s : State) : ∃ c f,
    issue p w s = .next (State.updPort { s with sel := c } p f) ∧
    (Rejects s p w → f = fun x =>
      { x with result := { code := .badCommand, app := 0x00#8, length := 0#16 }, phase := .idle, done := true }) ∧
    (¬ Rejects s p w → ∃ i, decodeWord w = .ok i ∧ f = Port.accepting i) := by
  rcases issue_cases p w s with ⟨i, hw, e⟩ | ⟨err, hw, e⟩
  · have hrejects : Rejects s p w ↔ FailsIssue s p i :=
      ⟨fun h => h i hw, fun h j hj => by cases hw.symm.trans hj; exact h⟩
    rcases issueOf_issues i p (s.select p .issue) with ⟨hfails, hi⟩ | ⟨hpasses, hi⟩
    · exact ⟨_, _, e.trans (congrArg _ hi), fun _ => rfl, fun h => absurd (hrejects.mpr hfails) h⟩
    · exact ⟨_, _, e.trans (congrArg _ hi), fun h => absurd (hrejects.mp h) hpasses, fun _ => ⟨i, hw, rfl⟩⟩
  · have hrejects : Rejects s p w := fun j hj => by cases hw.symm.trans hj
    exact ⟨s.sel, _, e, fun _ => rfl, fun h => absurd hrejects h⟩

/-! ### The checks by opcode -/

theorem readsCmdBuf_iff_opcode (i : Instr) :
    opcodeOf i ∈ [0x01#8, 0x02#8, 0x10#8, 0x11#8] ↔ readsCmdBuf i = true := by cases i <;> decide

theorem inSession_iff_opcode (i : Instr) : opcodeOf i ∈ [0x21#8, 0x22#8] ↔ inSession i = true := by
  cases i <;> decide

theorem mem_opcodes_iff (op : Byte) :
    op ∈ [0x01#8, 0x02#8, 0x10#8, 0x11#8, 0x12#8, 0x20#8, 0x21#8, 0x22#8] ↔ ∃ i, op = opcodeOf i := by
  constructor
  · intro h
    have hall : ∀ op ∈ [0x01#8, 0x02#8, 0x10#8, 0x11#8, 0x12#8, 0x20#8, 0x21#8, 0x22#8],
        ∃ i ∈ Instr.all, op = opcodeOf i := by decide
    obtain ⟨i, _, hi⟩ := hall op h
    exact ⟨i, hi⟩
  · rintro ⟨i, rfl⟩
    cases i <;> decide

/-- The first phase and the fresh counts, by opcode (R65). -/
theorem accepting_eq (i : Instr) (x : Port) : Port.accepting i x =
    { x with
      done := false, op := opcodeOf i,
      phase := if opcodeOf i ∈ [0x01#8, 0x02#8, 0x22#8] then .exec
        else if opcodeOf i ∈ [0x10#8, 0x12#8, 0x20#8] then .tokenWait
        else if opcodeOf i = 0x11#8 then .build else .dlSeekStart,
      wcnt := if opcodeOf i = 0x21#8 then 0 else x.wcnt,
      n := if opcodeOf i = 0x21#8 then 0 else x.n } := by cases i <;> rfl

/-- The words that are rejected, by the two fields of the word, as R65 lists them. -/
theorem rejects_iff (s : State) (p : Nat) (w : Word) : Rejects s p w ↔
    reservedField w ≠ 0#24 ∨
    opcodeField w ∉ [0x01#8, 0x02#8, 0x10#8, 0x11#8, 0x12#8, 0x20#8, 0x21#8, 0x22#8] ∨
    (opcodeField w ∈ [0x01#8, 0x02#8, 0x10#8, 0x11#8] ∧ s.cfg.cmdCap < s.lenOperand p) ∨
    (opcodeField w ∈ [0x21#8, 0x22#8] ∧ ¬ (s.dlMode = true ∧ s.token.held = true ∧ s.token.owner = p)) := by
  have hsession : (s.token = { held := true, owner := p } ∧ s.dlMode = true) ↔
      (s.dlMode = true ∧ s.token.held = true ∧ s.token.owner = p) := by
    rw [and_comm, ← owns_iff, State.owns, Bool.and_eq_true, decide_eq_true_iff]
  simp only [Rejects, decodeWord_eq_ok_iff]
  by_cases hreserved : reservedField w = 0#24
  · by_cases hop : ∃ i, opcodeField w = opcodeOf i
    · obtain ⟨i, hi⟩ := hop
      have hfields (j : Instr) : (reservedField w = 0#24 ∧ opcodeField w = opcodeOf j) ↔ i = j := by
        rw [← decodeOpcode_eq_some_iff, hi, decodeOpcode_opcodeOf]
        simp [hreserved]
      simp only [hfields, forall_eq']
      simp only [FailsIssue, hi, readsCmdBuf_iff_opcode, inSession_iff_opcode, hsession]
      simp [hreserved, (mem_opcodes_iff (opcodeOf i)).mpr ⟨i, rfl⟩]
    · refine iff_of_true (fun i hi => absurd ⟨i, hi.2⟩ hop) (.inr (.inl (mt (mem_opcodes_iff _).mp hop)))
  · exact iff_of_true (fun i hi => absurd hi.1 hreserved) (.inl hreserved)

/-- Settles O13: a word is rejected exactly on the condition of R65, and an issue changes registers of its port alone. -/
theorem cmdWriteIssuesTheCommand : Obligations.CmdWriteIssuesTheCommand := by
  intro s p w rest hlegal hlen hp hidle hsched op len bad
  have hlt : p < s.ports.length := hlen ▸ hp
  have hbad : Rejects s p w ↔ bad := rejects_iff s p w
  obtain ⟨c, f, e, hrejected, haccepted⟩ := issue_updPort p w { s with sched := rest, resp := .written }
  have hstep : step s = issue p w { s with sched := rest, resp := .written } :=
    (step_scheduled hlegal hsched).trans (perform_writeCmd_idle (s := { s with sched := rest }) w hp hidle)
  have hport : (State.updPort { s with sched := rest, resp := .written, sel := c } p f).port p = f (s.port p) :=
    port_updPort_same f hlt
  obtain ⟨hothers, hbuffers, htoken, hq, hflags, hwire, hcfg, hsched', _⟩ :=
    updPort_frame { s with sched := rest, resp := .written, sel := c } p f
  refine ⟨_, hstep.trans e, fun h => ?_, fun h => ?_, hothers, hbuffers, htoken, hq, hflags, hwire, hcfg, hsched'⟩
  · rw [Reports, hport, hrejected (hbad.mpr h)]
  · obtain ⟨i, hw, hf⟩ := haccepted (mt hbad.mp h)
    have hop : op = opcodeOf i := ((decodeWord_eq_ok_iff w i).mp hw).2
    rw [hport, hf, accepting_eq, hop]

end Sys2Proof.Machine
end

/-! ## The turns of an engine and of its timeout (R66, R74) -/

section
namespace Sys2Proof.Machine

/-! ### What a terminal step leaves of the wire and the schedule -/

@[simp] theorem cleanup_txLog (c : Cleanup) (p : Nat) (s : State) : (cleanup c p s).txLog = s.txLog := by
  obtain ⟨drains, releases, mode⟩ := c
  cases drains <;> cases releases <;> cases mode <;> simp [cleanup]

@[simp] theorem cleanup_txPend (c : Cleanup) (p : Nat) (s : State) : (cleanup c p s).txPend = s.txPend := by
  obtain ⟨drains, releases, mode⟩ := c
  cases drains <;> cases releases <;> cases mode <;> simp [cleanup]

@[simp] theorem cleanup_sched (c : Cleanup) (p : Nat) (s : State) : (cleanup c p s).sched = s.sched := by
  obtain ⟨drains, releases, mode⟩ := c
  cases drains <;> cases releases <;> cases mode <;> simp [cleanup]

section
variable (i : Instr) (p : Nat) (code : ResultCode) (app : Byte) (len : Nat) (s : State)

@[simp] theorem terminate_txLog : (terminate i p code app len s).txLog = s.txLog := by simp [terminate]
@[simp] theorem terminate_txPend : (terminate i p code app len s).txPend = s.txPend := by simp [terminate]
@[simp] theorem terminate_sched : (terminate i p code app len s).sched = s.sched := by simp [terminate]

end

/-- A busy port of a sound state has an operation in progress, and each of its steps is that operation's. -/
theorem Sound.serve {s : State} {p : Nat} (h : Sound s) (hbusy : s.busy p = true) :
    ∃ i, SoundApart p s ∧ InProgress s p i (s.port p) ∧
      ∀ act, operationStep act p s = .next (actOf i act p (s.select p act)) := by
  obtain ⟨i, _, hapart, hi⟩ := h.inProgress_of_busy hbusy
  exact ⟨i, hapart, hi, fun act => (operationStep_of_busy act hbusy hi.op_eq).trans (exec_select i p act s)⟩

variable {p : Nat} {s : State}

/-! ### Progress -/

/-- An operation is over: its port is IDLE and reports DONE (R67). -/
def Finished (x : Port) : Prop := x.phase = .idle ∧ x.done = true

/-- How many engine steps, the bytes of Q apart, a phase is from the end of its operation at most. -/
def phasesLeft : Phase → Nat
  | .idle => 0
  | .tokenWait => 4
  | .build => 3
  | .txWait => 2
  | _ => 1

/-- A bound on the engine steps that the operation of port p can still take without a timeout: each receive step pops a
byte of Q. -/
def workLeft (s : State) (p : Nat) : Nat := phasesLeft (s.port p).phase + s.q.length

/-- From s to t the operation of port p has ended or come nearer to its end. -/
def Moves (p : Nat) (s t : State) : Prop :=
  Finished (t.port p) ∨ ((t.port p).phase ≠ .idle ∧ workLeft t p < workLeft s p)

/-- The engine's turn: no step while the port waits in vain, else a step that moves the operation on. -/
def Turn (p : Nat) (s t : State) : Prop :=
  (WaitsInVain s p ∧ t = s) ∨ (¬ WaitsInVain s p ∧ Moves p s t)

theorem finished_terminate (i : Instr) (code : ResultCode) (app : Byte) (len : Nat) (hp : p < s.ports.length) :
    Finished ((terminate i p code app len s).port p) := by
  rw [port_terminate _ _ _ _ hp]
  exact ⟨rfl, rfl⟩

theorem moves_terminate {u : State} (i : Instr) (code : ResultCode) (app : Byte) (len : Nat)
    (hp : p < u.ports.length) : Moves p s (terminate i p code app len u) :=
  .inl (finished_terminate i code app len hp)

/-- A step to a phase nearer to the end. -/
theorem moves_updPort {u : State} {f : Port → Port} (hp : p < u.ports.length) (hbusy : (f (u.port p)).phase ≠ .idle)
    (hless : phasesLeft (f (u.port p)).phase + u.q.length < workLeft s p) : Moves p s (u.updPort p f) := by
  rw [Moves, workLeft, port_updPort_same f hp]
  exact .inr ⟨hbusy, hless⟩

theorem phasesLeft_byteWait {ph : Phase} (h : ph ∈ byteWaits) : phasesLeft ph = 1 ∧ ph ≠ .idle := by
  revert h
  cases ph <;> decide

/-- A receive step pops a byte and stays in the receive phases. -/
theorem moves_of_pop {u : State} {x : Port} {b : Byte} (hp : p < u.ports.length)
    (hwait : (s.port p).phase ∈ byteWaits) (hq : s.q = b :: u.q) (hx : x.phase ∈ byteWaits) :
    Moves p s (u.setPort p x) := by
  obtain ⟨hleft, _⟩ := phasesLeft_byteWait hwait
  obtain ⟨hleft', hbusy⟩ := phasesLeft_byteWait hx
  rw [Moves, workLeft, workLeft, port_setPort_same x hp, hleft, hleft', hq]
  exact .inr ⟨hbusy, by simp⟩

/-- A step that is not enabled leaves the state. -/
theorem Turn.eq_of_waitsInVain {t : State} (h : Turn p s t) (hvain : WaitsInVain s p) : t = s := by
  rcases h with ⟨_, hsame⟩ | ⟨hready, _⟩
  · exact hsame
  · exact absurd hvain hready

/-! ### The waits -/

theorem turn_awaitToken {k : State → State} (hph : (s.port p).phase = .tokenWait)
    (hk : Moves p s (k (acquire p s))) : Turn p s (awaitToken p k s) := by
  have hvain : WaitsInVain s p ↔ s.token.held = true := by rw [WaitsInVain, hph]
  rcases awaitToken_cases p k s with ⟨hheld, e⟩ | ⟨hfree, e⟩ <;> rw [e]
  · exact .inl ⟨hvain.mpr hheld, rfl⟩
  · exact .inr ⟨(by simp [hvain, hfree]), hk⟩

theorem turn_awaitTxDone {k : State → State} (hph : (s.port p).phase = .txWait)
    (hk : Moves p s (k { s with txDone := false })) : Turn p s (awaitTxDone k s) := by
  have hvain : WaitsInVain s p ↔ s.txDone = false := by rw [WaitsInVain, hph]
  rcases awaitTxDone_cases k s with ⟨hclear, e⟩ | ⟨hset, e⟩ <;> rw [e]
  · exact .inl ⟨hvain.mpr hclear, rfl⟩
  · exact .inr ⟨(by simp [hvain, hset]), hk⟩

theorem turn_awaitByte {k : Byte → State → State} (hvain : WaitsInVain s p ↔ s.q = [])
    (hk : ∀ b rest, s.q = b :: rest → Moves p s (k b { s with q := rest })) : Turn p s (awaitByte k s) := by
  rcases awaitByte_cases k s with ⟨hempty, e⟩ | ⟨b, rest, hq, e⟩ <;> rw [e]
  · exact .inl ⟨hvain.mpr hempty, rfl⟩
  · exact .inr ⟨(by simp [hvain, hq]), (hk b rest hq)⟩

/-- BUILD and EXEC are no waits. -/
theorem turn_of_noWait {t : State} (hph : (s.port p).phase = .build ∨ (s.port p).phase = .exec)
    (hmoves : Moves p s t) : Turn p s t := by
  refine .inr ⟨?_, hmoves⟩
  rcases hph with hph | hph <;> rw [WaitsInVain, hph] <;> exact id

/-! ### Every engine's turn -/

theorem codecExec_moves (i : Instr) (out : List Byte) (hp : p < s.ports.length) : Moves p s (codecExec i out p s) := by
  unfold codecExec
  split
  · exact moves_terminate i _ _ _ hp
  · exact moves_terminate i _ _ _ hp

theorem toBuild_moves (hp : p < s.ports.length) (hph : (s.port p).phase = .tokenWait) :
    Moves p s ((acquire p s).toPhase p .build) :=
  moves_updPort hp Phase.noConfusion (by simp [workLeft, hph, phasesLeft])

theorem toTxWait_moves (f : List Byte) (hp : p < s.ports.length) (hph : (s.port p).phase = .build) :
    Moves p s ((handoff f s).toPhase p .txWait) :=
  moves_updPort hp Phase.noConfusion (by simp [workLeft, hph, phasesLeft])

theorem buildCommand_moves (i : Instr) (hp : p < s.ports.length) (hph : (s.port p).phase = .build) :
    Moves p s (buildCommand i p s) := by
  unfold buildCommand
  dsimp only
  split
  · exact moves_terminate i _ _ _ hp
  · exact toTxWait_moves _ hp hph

theorem buildTelemetry_moves (hp : p < s.ports.length) (hph : (s.port p).phase = .build) :
    Moves p s (buildTelemetry p s) := by
  unfold buildTelemetry
  split
  · exact moves_terminate .tlmReq _ _ _ hp
  · exact toTxWait_moves _ hp hph

theorem enterRxReply_moves (hp : p < s.ports.length) (hph : (s.port p).phase = .txWait) :
    Moves p s (enterRxReply p { s with txDone := false }) :=
  moves_updPort hp Phase.noConfusion (by simp [workLeft, hph, phasesLeft])

theorem enterRxTlm_moves (hp : p < s.ports.length) (hph : (s.port p).phase = .txWait) :
    Moves p s (enterRxTlm p { s with txDone := false }) :=
  moves_updPort hp Phase.noConfusion (by simp [workLeft, hph, phasesLeft])

section
variable {b : Byte} {rest : List Byte} (hp : p < s.ports.length) (hwait : (s.port p).phase ∈ byteWaits)
  (hq : s.q = b :: rest)
include hp hwait hq

theorem rxReplyByte_moves : Moves p s (rxReplyByte p b { s with q := rest }) := by
  unfold rxReplyByte
  dsimp only
  split
  · exact moves_terminate .cmdReply _ _ _ (by simpa [storeReplyByte] using hp)
  · exact moves_of_pop hp hwait hq hwait

theorem rxTlmByte_moves : Moves p s (rxTlmByte p b { s with q := rest }) := by
  unfold rxTlmByte storeReplyByte
  dsimp only
  rw [updPort_eq { s with q := rest }, updPort_setPort]
  split
  · exact moves_terminate .tlmReq _ _ _ (by simpa using hp)
  · exact moves_of_pop hp hwait hq hwait

theorem seekStartByte_moves : Moves p s (seekStartByte p b { s with q := rest }) := by
  unfold seekStartByte beginFrame shiftWindow
  dsimp only
  rw [updPort_eq { s with q := rest }, updPort_setPort]
  split
  · exact moves_of_pop hp hwait hq (show Phase.dlAccum ∈ byteWaits by decide)
  · exact moves_of_pop hp hwait hq hwait

theorem accumByte_moves : Moves p s (accumByte p b { s with q := rest }) := by
  unfold accumByte storeFrameByte State.toPhase
  dsimp only
  rw [updPort_eq { s with q := rest }, updPort_setPort]
  split
  · exact moves_of_pop hp hwait hq (show Phase.dlSeekEnd ∈ byteWaits by decide)
  · exact moves_of_pop hp hwait hq hwait

theorem seekEndByte_moves : Moves p s (seekEndByte p b { s with q := rest }) := by
  unfold seekEndByte storeFrameByte
  dsimp only
  split
  · exact moves_terminate .dlRecv _ _ _ (by simpa using hp)
  · exact moves_of_pop hp hwait hq hwait

end

theorem byteWait_of_phase {ph : Phase} (hph : (s.port p).phase = ph) (h : ph ∈ byteWaits) :
    (s.port p).phase ∈ byteWaits := hph ▸ h

/-- A bound is tested before the byte wait: at the bound the port does not wait (R92, R106). -/
theorem rxTlmStep_turn (h : SoundApart p s) (hph : (s.port p).phase = .rxTlm) : Turn p s (rxTlmStep p s) := by
  have hle := h.rest.r_le
  have hvain : WaitsInVain s p ↔ s.q = [] ∧ (s.port p).r < s.cfg.rxbCap := by rw [WaitsInVain, hph]
  unfold rxTlmStep
  split
  · next hfull => exact .inr ⟨(by simp [hvain, hfull]), (moves_terminate .tlmReq _ _ _ h.lt_length)⟩
  · next hroom =>
    exact turn_awaitByte (by simp [hvain, Nat.lt_of_le_of_ne hle hroom]) fun b rest =>
      rxTlmByte_moves h.lt_length (byteWait_of_phase hph (by decide))

/-- The bound of DL_SEEK_END is tested before its byte wait (R98, R106). -/
theorem seekEndStep_turn (h : SoundApart p s) (hph : (s.port p).phase = .dlSeekEnd) : Turn p s (seekEndStep p s) := by
  have hle := h.rest.n_le
  have hvain : WaitsInVain s p ↔ s.q = [] ∧ (s.port p).n < s.cfg.maxLen := by rw [WaitsInVain, hph]
  unfold seekEndStep
  split
  · next hfull => exact .inr ⟨(by simp [hvain, hfull]), (moves_terminate .dlRecv _ _ _ h.lt_length)⟩
  · next hroom =>
    exact turn_awaitByte (by simp [hvain, Nat.lt_of_le_of_ne hle hroom]) fun b rest =>
      seekEndByte_moves h.lt_length (byteWait_of_phase hph (by decide))

theorem cmdReplyEngine_turn (h : SoundApart p s) (hphase : (s.port p).phase ∈ phasesOf .cmdReply) :
    Turn p s (cmdReplyEngine p s) := by
  have hp := h.lt_length
  simp only [phasesOf, List.mem_cons, List.not_mem_nil, or_false] at hphase
  rcases hphase with hph | hph | hph | hph <;> simp only [cmdReplyEngine, hph]
  · exact turn_awaitToken hph (toBuild_moves hp hph)
  · exact turn_of_noWait (.inl hph) (buildCommand_moves _ hp hph)
  · exact turn_awaitTxDone hph (enterRxReply_moves hp hph)
  · exact turn_awaitByte (by rw [WaitsInVain, hph]) fun b rest =>
      rxReplyByte_moves hp (byteWait_of_phase hph (by decide))

theorem cmdNoreplyEngine_turn (h : SoundApart p s) (hphase : (s.port p).phase ∈ phasesOf .cmdNoreply) :
    Turn p s (cmdNoreplyEngine p s) := by
  have hp := h.lt_length
  simp only [phasesOf, List.mem_cons, List.not_mem_nil, or_false] at hphase
  rcases hphase with hph | hph <;> simp only [cmdNoreplyEngine, hph]
  · exact turn_of_noWait (.inl hph) (buildCommand_moves _ hp hph)
  · exact turn_awaitTxDone hph (moves_terminate .cmdNoreply _ _ _ hp)

theorem tlmReqEngine_turn (h : SoundApart p s) (hphase : (s.port p).phase ∈ phasesOf .tlmReq) :
    Turn p s (tlmReqEngine p s) := by
  have hp := h.lt_length
  simp only [phasesOf, List.mem_cons, List.not_mem_nil, or_false] at hphase
  rcases hphase with hph | hph | hph | hph <;> simp only [tlmReqEngine, hph]
  · exact turn_awaitToken hph (toBuild_moves hp hph)
  · exact turn_of_noWait (.inl hph) (buildTelemetry_moves hp hph)
  · exact turn_awaitTxDone hph (enterRxTlm_moves hp hph)
  · exact rxTlmStep_turn h hph

theorem dlRecvEngine_turn (h : SoundApart p s) (hphase : (s.port p).phase ∈ phasesOf .dlRecv) :
    Turn p s (dlRecvEngine p s) := by
  have hp := h.lt_length
  simp only [phasesOf, List.mem_cons, List.not_mem_nil, or_false] at hphase
  rcases hphase with hph | hph | hph <;> simp only [dlRecvEngine, hph]
  · exact turn_awaitByte (by rw [WaitsInVain, hph]) fun b rest =>
      seekStartByte_moves hp (byteWait_of_phase hph (by decide))
  · exact turn_awaitByte (by rw [WaitsInVain, hph]) fun b rest =>
      accumByte_moves hp (byteWait_of_phase hph (by decide))
  · exact seekEndStep_turn h hph

/-- The engine of an operation in progress waits in vain or moves the operation on. -/
theorem engineOf_turn {i : Instr} (h : SoundApart p s) (hphase : (s.port p).phase ∈ phasesOf i) :
    Turn p s (engineOf i p s) := by
  have hp := h.lt_length
  cases i with
  | stuff =>
    have hph := List.mem_singleton.mp hphase
    simp only [engineOf, stuffEngine, hph]
    exact turn_of_noWait (.inr hph) (codecExec_moves .stuff _ hp)
  | destuff =>
    have hph := List.mem_singleton.mp hphase
    simp only [engineOf, destuffEngine, hph]
    exact turn_of_noWait (.inr hph) (codecExec_moves .destuff _ hp)
  | cmdReply => exact cmdReplyEngine_turn h hphase
  | cmdNoreply => exact cmdNoreplyEngine_turn h hphase
  | tlmReq => exact tlmReqEngine_turn h hphase
  | dlEnter =>
    have hph := List.mem_singleton.mp hphase
    simp only [engineOf, dlEnterEngine, hph]
    exact turn_awaitToken hph (moves_terminate .dlEnter _ _ _ hp)
  | dlRecv => exact dlRecvEngine_turn h hphase
  | dlExit =>
    have hph := List.mem_singleton.mp hphase
    simp only [engineOf, dlExitEngine, hph]
    exact turn_of_noWait (.inr hph) (moves_terminate .dlExit _ _ _ hp)

/-! ### The timeout's turn -/

/-- The condition of a wait is false exactly in a wait in vain, the counters being within their bounds (R74). -/
theorem waitCondition_false_iff (h : PortAtRest s.cfg (s.port p)) :
    s.waitCondition p (s.port p).phase = some false ↔ WaitsInVain s p := by
  rw [WaitsInVain]
  cases (s.port p).phase <;> simp [State.waitCondition, Nat.lt_iff_le_and_ne, h.r_le, h.n_le]

theorem timeoutCode_eq (ph : Phase) : timeoutCode ph = if ph = .tokenWait then .busBusy else .transportFailed := by
  cases ph <;> rfl

/-- The error of a wait in vain, and nothing else of the block but its cleanup (R74, R103). -/
theorem timeoutStep_of_waitsInVain (i : Instr) (h : SoundApart p s) (hvain : WaitsInVain s p) :
    timeoutStep i p s = raiseFail i p (if (s.port p).phase = .tokenWait then .busBusy else .transportFailed) s := by
  rw [← timeoutCode_eq]
  exact if_pos ((waitCondition_false_iff h.rest).mpr hvain)

theorem timeoutStep_of_not_waitsInVain (i : Instr) (h : SoundApart p s) (hready : ¬ WaitsInVain s p) :
    timeoutStep i p s = s := if_neg (mt (waitCondition_false_iff h.rest).mp hready)

theorem SoundApart.select (h : SoundApart p s) (act : Act) : SoundApart p (s.select p act) :=
  h.withShared h.shared rfl rfl rfl rfl

/-- Settles O27: in a wait in vain the timeout is the error of that wait and the engine has no step; else the timeout has
none. -/
theorem timeoutEndsAWaitInVain : Obligations.TimeoutEndsAWaitInVain := by
  intro s p h hbusy
  obtain ⟨i, hapart, hi, hstep⟩ := h.serve hbusy
  refine ⟨fun hvain => ⟨⟨_, hstep .timeout, ?_⟩, ?_⟩, fun hready => ?_⟩
  · rw [actOf, timeoutStep_of_waitsInVain i (hapart.select .timeout) hvain, raiseFail]
    exact ⟨port_terminate (s := s.select p .timeout) i _ _ _ hapart.lt_length, terminate_txDone _ _ _ _ _ _,
      ⟨terminate_txLog _ _ _ _ _ _, terminate_txPend _ _ _ _ _ _⟩, byteAt_terminate _ _ _ _ _ _,
      fun _ hne => port_terminate_ne _ _ _ _ hne⟩
  · have hturn := engineOf_turn (i := i) (hapart.select .engine) hi.phase_mem
    exact (hstep .engine).trans (congrArg _ (hturn.eq_of_waitsInVain hvain))
  · exact (hstep .timeout).trans (congrArg _ (timeoutStep_of_not_waitsInVain i (hapart.select .timeout) hready))

end Sys2Proof.Machine
end

/-! ## Rules of 40_shell.md about every step: the token and TXLOG (R71, R72) -/

section
namespace Sys2Proof.Machine

/-! ### The token -/

/-- What a step of an operation on port p does to the token: an acquire in TOKEN_WAIT, or a release that ends the
operation (R71, R105). -/
theorem OpStep.token_cases {i : Instr} {p : Nat} {s t : State} {e : Event} (h : OpStep i p s e t)
    (hi : InProgress s p i (s.port p)) (hp : p < s.ports.length) : t.token = s.token ∨
    (e = .engine p ∧ (s.port p).phase = .tokenWait ∧ s.token.held = false ∧
      t.token = { held := true, owner := p }) ∨
    ((e = .engine p ∨ e = .timeout p) ∧ s.token = { held := true, owner := p } ∧
      t.token = { held := false, owner := 0 } ∧ (t.port p).phase = .idle) := by
  cases h with
  | stays => exact .inl rfl
  | goesOn hx =>
    cases hx with
    | token hph hfree => exact .inr (.inl ⟨rfl, hph, hfree, rfl⟩)
    | _ => exact .inl rfl
  | fails he hcode hwait =>
    rcases terminate_shared rfl (hi.mayClean_error hcode hwait) (fun hok => hcode hok.2) with
      ⟨_, htoken, _⟩ | ⟨hown, htoken, _⟩
    · exact .inl htoken
    · exact .inr (.inr ⟨he, hown, htoken, (finished_terminate _ _ _ _ hp).1⟩)
  | enters henter hfree =>
    subst henter
    exact .inr (.inl ⟨rfl, List.mem_singleton.mp hi.phase_mem, hfree, rfl⟩)
  | @succeeds u x app len out henter hph hx =>
    have htok : u.token = s.token := hx.token_eq (hph ▸ lastPhase_ne_tokenWait henter)
    have hmay : MayClean ((u.setPort p x).writeOut p out) p i .ok :=
      (hi.mayClean_ok henter hph).imp id fun ⟨hown, hmode⟩ => ⟨htok.trans hown, hx.dlMode.trans hmode⟩
    have hp' : p < ((u.setPort p x).writeOut p out).ports.length := by simpa [hx.ports] using hp
    rcases terminate_shared rfl hmay (fun hok => henter hok.1) with ⟨_, htoken, _⟩ | ⟨hown, htoken, _⟩
    · exact .inl (htoken.trans htok)
    · exact .inr (.inr ⟨.inl rfl, htok.symm.trans hown, htoken, (finished_terminate _ _ _ _ hp').1⟩)

theorem AgentStep.token_cases {e : Event} {s t : State} (h : AgentStep s e t) (hs : Sound s) : t.token = s.token ∨
    (∃ p, e = .engine p ∧ (s.port p).phase = .tokenWait ∧ s.token.held = false ∧
      t.token = { held := true, owner := p }) ∨
    (∃ p, (e = .engine p ∨ e = .timeout p) ∧ s.token = { held := true, owner := p } ∧
      t.token = { held := false, owner := 0 } ∧ s.busy p = true ∧ t.busy p = false) ∨
    (e = .reset ∧ t.token = { held := false, owner := 0 }) := by
  cases h with
  | read => exact .inl rfl
  | write h => exact .inl h.token_eq
  | noOperation => exact .inl rfl
  | @operation i p act _ _ hbusy hop h =>
    obtain ⟨hapart, hi⟩ := hs.operation hbusy hop
    rcases h.token_cases { hi with } hapart.lt_length with htoken | hacquires | ⟨he, hown, htoken, hidle⟩
    · exact .inl htoken
    · exact .inr (.inl ⟨p, hacquires⟩)
    · exact .inr (.inr (.inl ⟨p, he, hown, htoken, hbusy, busy_of_idle hidle⟩))
  | push b => exact .inl (push_token b s)
  | completion => exact .inl rfl
  | reset => exact .inr (.inr (.inr ⟨rfl, rfl⟩))

/-- Settles O46: of the agents' steps only an acquire in TOKEN_WAIT, the end of an operation that holds the token, and
reset write the token. -/
theorem tokenChangesOnlyByAcquireAndRelease : Obligations.TokenChangesOnlyByAcquireAndRelease := by
  intro s t h ht hne
  obtain ⟨_, _, hs, hstep⟩ := agentStep_of_sound_step h ht
  exact (hstep.token_cases hs).resolve_left hne

/-! ### TXLOG -/

@[simp] theorem writeCmdBuf_txLog (p i : Nat) (n : Width) (v : Word) (s : State) :
    (writeCmdBuf p i n v s).txLog = s.txLog := rfl

theorem HostStep.txLog_eq {a : Nat} {n : Width} {s t : State} (h : HostStep a n s t) : t.txLog = s.txLog := by
  cases h <;> simp

/-- Of the steps of an operation only BUILD hands a frame off (R72). -/
theorem OpStep.txLog_cases {i : Instr} {p : Nat} {s t : State} {e : Event} (h : OpStep i p s e t) :
    t.txLog = s.txLog ∨ (e = .engine p ∧ (s.port p).phase = .build) := by
  have hexchange {u : State} (hx : Exchange p s u) : u.txLog = s.txLog ∨ (s.port p).phase = .build := by
    cases hx with
    | frame _ hph => exact .inr hph
    | _ => exact .inl rfl
  cases h with
  | stays => exact .inl rfl
  | goesOn hx => exact (hexchange hx).imp id fun hph => ⟨rfl, hph⟩
  | fails => exact .inl (terminate_txLog _ _ _ _ _ _)
  | enters => exact .inl (terminate_txLog _ _ _ _ _ _)
  | succeeds _ _ hx =>
    rw [terminate_txLog]
    exact (hexchange hx).imp id fun hph => ⟨rfl, hph⟩

theorem AgentStep.txLog_cases {e : Event} {s t : State} (h : AgentStep s e t) : t.txLog = s.txLog ∨
    ∃ p, e = .engine p ∧ s.busy p = true ∧ (s.port p).phase = .build := by
  cases h with
  | read => exact .inl rfl
  | write h => exact .inl h.txLog_eq
  | noOperation => exact .inl rfl
  | @operation i p _ _ _ hbusy _ h => exact h.txLog_cases.imp id fun ⟨he, hph⟩ => ⟨p, he, hbusy, hph⟩
  | push b => exact .inl (push_txLog b s)
  | completion => exact .inl rfl
  | reset => exact .inl rfl

/-- A step is performed in a sound state that differs from s in the agents' order alone. -/
theorem perform_of_sound_step {s t : State} (h : Sound s) (ht : step s = .next t) :
    ∃ sched tick, Sound { s with sched := sched, tick := tick } ∧
      perform (nextEvent s) { s with sched := sched, tick := tick } = .next t := by
  obtain ⟨sched, tick, hdraw⟩ := afterDraw_eq s
  refine ⟨sched, tick, h, ?_⟩
  rcases step_cases s with ⟨_, e⟩ | ⟨_, e⟩
  · rw [← hdraw, ← e, ht]
  · rw [e] at ht; cases ht

/-- The frame that command i builds on port p (R57, R58). -/
def frameOf (i : Instr) (p : Nat) (s : State) : List Byte :=
  if i = .tlmReq then frameTlm s.cfg (s.idOperand p) else frameCmd s.cfg (s.bytesOperand p)

/-- BUILD ends with ALLOCATION_FAILED, or hands off one whole frame within TX_CAP (R88, R89, R92). -/
theorem build_cases {i : Instr} {p : Nat} {s : State} (h : SoundApart p s) (hi : InProgress s p i (s.port p))
    (hph : (s.port p).phase = .build) :
    engineOf i p s = raiseFail i p .allocationFailed s ∨
    (engineOf i p s = (handoff (frameOf i p s) s).toPhase p .txWait ∧ (frameOf i p s).length ≤ s.cfg.txCap) := by
  have hcommand (hne : i ≠ .tlmReq) : buildCommand i p s = raiseFail i p .allocationFailed s ∨
      (buildCommand i p s = (handoff (frameOf i p s) s).toPhase p .txWait ∧ (frameOf i p s).length ≤ s.cfg.txCap) := by
    rw [frameOf, if_neg hne]
    unfold buildCommand
    dsimp only
    split
    · exact .inl rfl
    · next hfits => exact .inr ⟨rfl, Nat.le_of_not_lt hfits⟩
  have hphase : .build ∈ phasesOf i := hph ▸ hi.phase_mem
  cases i with
  | cmdReply => simpa only [engineOf, cmdReplyEngine, hph] using hcommand (by decide)
  | cmdNoreply => simpa only [engineOf, cmdNoreplyEngine, hph] using hcommand (by decide)
  | tlmReq =>
    obtain ⟨_, _, _, _, _, _, _, htx, _⟩ := (legal_iff s.cfg).mp h.legal
    simp only [engineOf, tlmReqEngine, hph]
    unfold buildTelemetry
    split
    · exact .inl rfl
    · exact .inr ⟨rfl, htx⟩
  | _ => exact absurd hphase (by decide)

/-- OP tells which of the two forms the frame has. -/
theorem frameOf_eq {i : Instr} {p : Nat} {s : State} (hop : (s.port p).op = opcodeOf i) :
    if (s.port p).op = opcodeOf .tlmReq then frameOf i p s = [ESC, s.cfg.som, s.idOperand p, ESC, s.cfg.eom]
    else frameOf i p s = [ESC, s.cfg.som] ++ stuff (s.bytesOperand p) ++ [ESC, s.cfg.eom] := by
  rw [hop, frameOf]
  cases i <;> rfl

/-- An engine step in BUILD leaves TXLOG, or appends the frame of its command and enters TX_WAIT (R72). -/
theorem perform_build {p : Nat} {s t : State} (hs : Sound s) (hbusy : s.busy p = true)
    (hph : (s.port p).phase = .build) (ht : perform (.engine p) s = .next t) : t.txLog = s.txLog ∨
    ∃ i, (s.port p).op = opcodeOf i ∧ (t.port p).phase = .txWait ∧ t.txLog = s.txLog ++ [frameOf i p s] ∧
      t.txPend = s.txPend + 1 ∧ (frameOf i p s).length ≤ s.cfg.txCap := by
  obtain ⟨i, hapart, hi, hserve⟩ := hs.serve hbusy
  have hengine : engineOf i p (s.select p .engine) = t := Host.Outcome.next.inj ((hserve .engine).symm.trans ht)
  rw [← hengine]
  rcases build_cases (i := i) (hapart.select .engine) { hi with } hph with e | ⟨e, hfits⟩ <;> rw [e]
  · exact .inl (terminate_txLog _ _ _ _ _ _)
  · have hport := port_updPort_same (s := handoff (frameOf i p s) (s.select p .engine))
      (fun x => { x with phase := .txWait }) hapart.lt_length
    exact .inr ⟨i, hi.op_eq, congrArg Port.phase hport, rfl, rfl, hfits⟩

/-- Settles O49: only BUILD hands a frame off, and it hands off the frame of its command. -/
theorem txLogGrowsByWholeFrames : Obligations.TxLogGrowsByWholeFrames := by
  intro s t h ht hne
  obtain ⟨_, _, hs, hperform⟩ := perform_of_sound_step h ht
  obtain ⟨p, he, hbusy, hph⟩ := (AgentStep.of_perform hperform).txLog_cases.resolve_left hne
  rw [he] at hperform
  obtain ⟨i, hop, hwait, hlog, hpend, hfits⟩ := (perform_build hs hbusy hph hperform).resolve_left hne
  exact ⟨p, frameOf i p s, he, hph, hwait, hlog, hpend, hfits, frameOf_eq hop⟩

end Sys2Proof.Machine
end

/-! ## Served in turn, every operation ends (R74 to R76) -/

section
namespace Sys2Proof.Machine

variable {p : Nat} {s : State}

/-- What the turns of port p leave: the schedule and every other port (R113). -/
structure TurnFrame (p : Nat) (s t : State) : Prop where
  sched : t.sched = s.sched
  others : OtherPortsSame p s t

theorem TurnFrame.refl (p : Nat) (s : State) : TurnFrame p s s := ⟨rfl, fun _ _ => rfl⟩

theorem Exchange.sched {u : State} (h : Exchange p s u) : u.sched = s.sched := by cases h <;> rfl

theorem OpStep.turnFrame {i : Instr} {e : Event} {t : State} (h : OpStep i p s e t) : TurnFrame p s t := by
  refine ⟨?_, fun _ hne => h.port_ne hne⟩
  cases h with
  | stays => rfl
  | goesOn hx => exact hx.sched
  | fails => exact terminate_sched _ _ _ _ _ _
  | enters => exact terminate_sched _ _ _ _ _ _
  | succeeds _ _ hx => rw [terminate_sched, writeOut_sched, setPort_sched, hx.sched]

/-! ### One round -/

theorem busy_of_waitsInVain (h : WaitsInVain s p) : s.busy p = true := by
  by_contra hidle
  have hph : (s.port p).phase = .idle := by simpa [State.busy] using hidle
  rw [WaitsInVain, hph] at h
  exact h

theorem busy_congr {t : State} (h : t.port p = s.port p) : t.busy p = s.busy p := by rw [State.busy, h, State.busy]

/-- The engine's turn in a sound state: it moves a busy port on, or leaves its registers, waiting in vain if busy. -/
theorem Sound.perform_engine (h : Sound s) (p : Nat) : ∃ t, perform (.engine p) s = .next t ∧ TurnFrame p s t ∧
    ((s.busy p = true ∧ Moves p s t) ∨ (t.port p = s.port p ∧ (s.busy p = true → WaitsInVain t p))) := by
  cases hbusy : s.busy p with
  | false => exact ⟨s, operationStep_of_idle .engine hbusy, .refl p s, .inr ⟨rfl, nofun⟩⟩
  | true =>
    obtain ⟨i, hapart, hi, hserve⟩ := h.serve hbusy
    have hframe : TurnFrame p (s.select p .engine) (engineOf i p (s.select p .engine)) :=
      (OpStep.of_engineOf (s := s.select p .engine) i hapart.lt_length).turnFrame
    refine ⟨_, hserve .engine, ⟨hframe.sched, hframe.others⟩, ?_⟩
    rcases engineOf_turn (i := i) (hapart.select .engine) hi.phase_mem with ⟨hvain, e⟩ | ⟨_, hmoves⟩
    · rw [actOf, e]
      exact .inr ⟨rfl, fun _ => hvain⟩
    · exact .inl ⟨rfl, hmoves⟩

/-- The timeout's turn in a sound state: it ends the operation of a port that waits in vain, or has no step. -/
theorem Sound.perform_timeout (h : Sound s) (p : Nat) : ∃ t, perform (.timeout p) s = .next t ∧ TurnFrame p s t ∧
    ((s.busy p = true ∧ Finished (t.port p)) ∨ (t.port p = s.port p ∧ t.q = s.q ∧ ¬ WaitsInVain s p)) := by
  cases hbusy : s.busy p with
  | false =>
    refine ⟨s, operationStep_of_idle .timeout hbusy, .refl p s, .inr ⟨rfl, rfl, fun hvain => ?_⟩⟩
    rw [busy_of_waitsInVain hvain] at hbusy
    cases hbusy
  | true =>
    obtain ⟨i, hapart, _, hserve⟩ := h.serve hbusy
    have hframe := (OpStep.of_timeout i p (s.select p .timeout)).turnFrame
    refine ⟨_, hserve .timeout, ⟨hframe.sched, hframe.others⟩, ?_⟩
    by_cases hvain : WaitsInVain s p
    · rw [actOf, timeoutStep_of_waitsInVain i (hapart.select .timeout) hvain]
      exact .inl ⟨rfl, finished_terminate _ _ _ _ hapart.lt_length⟩
    · rw [actOf, timeoutStep_of_not_waitsInVain i (hapart.select .timeout) hvain]
      exact .inr ⟨rfl, rfl, hvain⟩

theorem core_run_succ (M : Host.Core) {x y : M.State} (h : M.step x = .next y) (k : Nat) :
    M.run (k + 1) x = M.run k y := by
  rw [Host.Core.run, h]

theorem run_succ {t : State} (h : step s = .next t) (k : Nat) : run (k + 1) s = run k t :=
  core_run_succ Sys2Proof.core h k

theorem Moves.congr {t u : State} (h : Moves p s t) (hport : u.port p = t.port p) (hq : u.q = t.q) :
    Moves p s u := by
  rw [Moves, workLeft, hport, hq]
  exact h

/-- A round of an engine step and a timeout ends the operation of a busy port or brings it nearer to its end, and leaves
the registers of an idle one. -/
theorem Sound.serviceRound (h : Sound s) {rest : List Event} (hsched : s.sched = .engine p :: .timeout p :: rest) :
    ∃ t, (∀ k, run (k + 2) s = run k t) ∧ Sound t ∧ t.sched = rest ∧ OtherPortsSame p s t ∧
      ((s.busy p = true ∧ Moves p s t) ∨ (s.busy p = false ∧ t.port p = s.port p)) := by
  obtain ⟨hlegal, _⟩ := id h
  obtain ⟨u, hperform, hframe, hengine⟩ :=
    Sound.perform_engine (s := { s with sched := .timeout p :: rest }) h p
  have hstep : step s = .next u := (step_scheduled hlegal hsched).trans hperform
  have hu : Sound u := everyStepKeepsSoundness s u h hstep
  obtain ⟨hlegal', _⟩ := id hu
  obtain ⟨t, hperform', hframe', htimeout⟩ := Sound.perform_timeout (s := { u with sched := rest }) hu p
  have hstep' : step u = .next t := (step_scheduled hlegal' hframe.sched).trans hperform'
  refine ⟨t, fun k => (run_succ hstep (k + 1)).trans (run_succ hstep' k), everyStepKeepsSoundness u t hu hstep',
    hframe'.sched, fun p' hne => (hframe'.others p' hne).trans (hframe.others p' hne), ?_⟩
  rcases hengine with ⟨hbusy, hmoves⟩ | ⟨hport, hvain⟩ <;>
    rcases htimeout with ⟨hbusy', hfinished⟩ | ⟨hport', hq, hready⟩
  · exact .inl ⟨hbusy, .inl hfinished⟩
  · exact .inl ⟨hbusy, hmoves.congr hport' hq⟩
  · exact .inl ⟨(busy_congr hport).symm.trans hbusy', .inl hfinished⟩
  · exact .inr ⟨Bool.eq_false_of_not_eq_true fun hbusy => hready (hvain hbusy), hport'.trans hport⟩

/-! ### All rounds -/

theorem workLeft_pos (hbusy : s.busy p = true) : 0 < workLeft s p := by
  have hph : (s.port p).phase ≠ .idle := by simpa [State.busy] using hbusy
  have hleft : 0 < phasesLeft (s.port p).phase := by
    revert hph
    cases (s.port p).phase <;> decide
  exact Nat.lt_of_lt_of_le hleft (Nat.le_add_right _ _)

theorem workLeft_le (s : State) (p : Nat) : workLeft s p ≤ s.q.length + 4 := by
  have hleft : phasesLeft (s.port p).phase ≤ 4 := by cases (s.port p).phase <;> decide
  rw [workLeft]
  omega

/-- As many rounds as there is work left end the operation. -/
theorem run_serviceRounds {k : Nat} {rest : List Event} (h : Sound s) (hsched : s.sched = serviceRounds p k ++ rest)
    (hwork : s.busy p = true → workLeft s p ≤ k) :
    ∃ t, run (2 * k) s = .next t ∧ (t.port p).phase = .idle ∧
      (s.busy p = true ∨ (s.port p).done = true → (t.port p).done = true) ∧ t.sched = rest ∧ OtherPortsSame p s t := by
  induction k generalizing s with
  | zero =>
    have hidle : ¬ s.busy p = true := fun hbusy => absurd (workLeft_pos hbusy) (Nat.not_lt.mpr (hwork hbusy))
    exact ⟨s, rfl, by simpa [State.busy] using hidle, fun hdone => hdone.resolve_left hidle, hsched, fun _ _ => rfl⟩
  | succ k ih =>
    obtain ⟨u, hrun, hu, hsched', hothers, hround⟩ := h.serviceRound hsched
    have hwork' : u.busy p = true → workLeft u p ≤ k := by
      intro hbusy
      rcases hround with ⟨hbusy', ⟨hidle, _⟩ | ⟨_, hless⟩⟩ | ⟨hidle, hport⟩
      · rw [busy_of_idle hidle] at hbusy; cases hbusy
      · exact Nat.le_of_lt_succ (Nat.lt_of_lt_of_le hless (hwork hbusy'))
      · rw [busy_congr hport, hidle] at hbusy; cases hbusy
    have hdone' : s.busy p = true ∨ (s.port p).done = true → u.busy p = true ∨ (u.port p).done = true := by
      intro hdone
      rcases hround with ⟨_, ⟨_, hdone'⟩ | ⟨hbusy, _⟩⟩ | ⟨_, hport⟩
      · exact .inr hdone'
      · exact .inl (by simpa [State.busy] using hbusy)
      · rwa [busy_congr hport, hport]
    obtain ⟨t, hrun', hidle, hdone, hsched'', hothers'⟩ := ih hu hsched' hwork'
    exact ⟨t, (hrun (2 * k)).trans hrun', hidle, fun hs => hdone (hdone' hs), hsched'',
      fun p' hne => (hothers' p' hne).trans (hothers p' hne)⟩

/-- Settles O59, by induction on the rounds: each one leaves less of the work that the phase and Q bound. -/
theorem everyOperationEnds : Obligations.EveryOperationEnds := by
  intro s p h rounds
  have hplaced : Sound (s.placing (serviceRounds p rounds)) := h
  obtain ⟨t, hrun, hidle, hdone, hsched, hothers⟩ := run_serviceRounds hplaced rfl fun _ => workLeft_le s p
  exact ⟨t, hrun, hidle, fun hbusy => hdone (.inl hbusy), hsched, hothers⟩

end Sys2Proof.Machine
end

/-! ## The laws of the codec functions (R80 to R85) -/

section
namespace Sys2Proof.Machine

/-! ### Their lengths -/

theorem stuff_eq_flatMap (t : List Byte) : stuff t = t.flatMap (fun b => if b = ESC then [b, ESC] else [b]) := by
  induction t with
  | nil => rfl
  | cons b t ih =>
    rw [List.flatMap_cons, ← ih]
    by_cases hb : b = ESC
    · subst hb; exact stuff_cons_esc t
    · rw [stuff_cons_of_ne hb, if_neg hb]; rfl

/-- Each ESC costs one byte more (R82). -/
theorem stuff_length (t : List Byte) : (stuff t).length = t.length + t.count ESC := by
  induction t with
  | nil => rfl
  | cons b t ih =>
    by_cases hb : b = ESC
    · subst hb
      rw [stuff_cons_esc, List.count_cons_self]
      simp only [List.length_cons]
      omega
    · rw [stuff_cons_of_ne hb, List.count_cons_of_ne hb]
      simp only [List.length_cons]
      omega

/-- Settles O8: an ESC is counted at most once per byte. -/
theorem stuffingLengthLaw : Obligations.StuffingLengthLaw := by
  refine ⟨rfl, fun t => ⟨stuff_eq_flatMap t, stuff_length t, ?_⟩⟩
  have hcount : t.count ESC ≤ t.length := List.count_le_length
  rw [stuff_length]
  omega

theorem skipped_cons_esc (c : Byte) (t : List Byte) : skipped (ESC :: c :: t) = skipped t + 1 := if_pos rfl

theorem skipped_cons_of_ne {b : Byte} (h : b ≠ ESC) (t : List Byte) : skipped (b :: t) = skipped t := by
  cases t with
  | nil => rfl
  | cons c t => exact if_neg h

/-- The scan of R81 copies or skips each byte. -/
theorem destuff_length_add_skipped (s : List Byte) : (destuff s).length + skipped s = s.length := by
  induction s using destuff.induct with
  | case1 => rfl
  | case2 b => rfl
  | case3 c t ih =>
    rw [destuff_cons_esc, skipped_cons_esc]
    simp only [List.length_cons]
    omega
  | case4 b c t hb ih =>
    rw [destuff_cons_of_ne hb, skipped_cons_of_ne hb]
    simp only [List.length_cons] at ih ⊢
    omega

/-- A byte is skipped only after an ESC that is copied. -/
theorem skipped_le_destuff_length (s : List Byte) : skipped s ≤ (destuff s).length := by
  induction s using destuff.induct with
  | case1 => exact Nat.le_refl _
  | case2 b => exact Nat.zero_le _
  | case3 c t ih =>
    rw [destuff_cons_esc, skipped_cons_esc]
    exact Nat.succ_le_succ ih
  | case4 b c t hb ih =>
    rw [destuff_cons_of_ne hb, skipped_cons_of_ne hb]
    exact Nat.le_succ_of_le ih

theorem destuff_length_le (s : List Byte) : (destuff s).length ≤ s.length :=
  Nat.le.intro (destuff_length_add_skipped s)

/-- Settles O10: every byte is copied or skipped, and no more are skipped than copied. -/
theorem destuffingLengthLaw : Obligations.DestuffingLengthLaw := by
  intro s
  have hlen := destuff_length_add_skipped s
  have hhalf := skipped_le_destuff_length s
  omega

/-! ### The round trip -/

/-- destuff reads the stuffed form of t as t, and goes on after it as from the start. -/
theorem destuff_stuff_append (t v : List Byte) : destuff (stuff t ++ v) = t ++ destuff v := by
  induction t with
  | nil => rfl
  | cons b t ih =>
    by_cases hb : b = ESC
    · subst hb
      rw [stuff_cons_esc, List.cons_append, List.cons_append, destuff_cons_esc, ih, List.cons_append]
    · rw [stuff_cons_of_ne hb, List.cons_append, destuff_cons_of_ne hb, ih, List.cons_append]

theorem destuff_stuff (t : List Byte) : destuff (stuff t) = t := by
  simpa using destuff_stuff_append t []

/-- Settles O9, by induction on the thin sequence. -/
theorem destuffUndoesStuff : Obligations.DestuffUndoesStuff := destuff_stuff

theorem stuff_replicate_esc (k : Nat) : stuff (List.replicate k ESC) = List.replicate (2 * k) ESC := by
  induction k with
  | zero => rfl
  | succ k ih => rw [List.replicate_succ, stuff_cons_esc, ih, Nat.mul_succ, List.replicate_succ, List.replicate_succ]

/-- After an odd run of ESC the byte that follows it, if any, is lost. -/
theorem destuff_odd_run (k : Nat) (v : List Byte) :
    destuff (List.replicate (2 * k + 1) ESC ++ v) = List.replicate (k + 1) ESC ++ destuff v.tail := by
  have hlast : destuff (ESC :: v) = ESC :: destuff v.tail := by
    cases v with
    | nil => rfl
    | cons c v => exact destuff_cons_esc c v
  rw [List.replicate_succ', ← stuff_replicate_esc, List.append_assoc, List.singleton_append, destuff_stuff_append,
    hlast, List.replicate_succ', List.append_assoc, List.singleton_append]

/-! ### Well stuffed sequences -/

theorem wellStuffed_nil : WellStuffed [] := by
  intro u k v h _ _
  obtain ⟨-, rfl, -⟩ : u = [] ∧ k = 0 ∧ v = [] := by simpa using h.symm
  rfl

/-- A first byte other than ESC belongs to no run. -/
theorem wellStuffed_cons_of_ne {b : Byte} (hb : b ≠ ESC) {s : List Byte} : WellStuffed (b :: s) ↔ WellStuffed s := by
  constructor
  · intro h u k v hs hu hv
    refine h (b :: u) k v (by rw [hs]; rfl) ?_ hv
    cases u with
    | nil => simpa using hb
    | cons c u => simpa using hu
  · intro h u k v hs hu hv
    cases u with
    | nil =>
      cases k with
      | zero => rfl
      | succ k => exact absurd (List.cons.inj hs).1 hb
    | cons c u =>
      refine h u k v (List.cons.inj hs).2 (fun hlast => hu ?_) hv
      rw [List.getLast?_cons, hlast]
      rfl

/-- Two bytes ESC lengthen the first run by two. -/
theorem wellStuffed_esc_esc {s : List Byte} : WellStuffed (ESC :: ESC :: s) ↔ WellStuffed s := by
  constructor
  · intro h u k v hs hu hv
    cases u with
    | nil =>
      have heven : (k + 2) % 2 = 0 := h [] (k + 2) v (by rw [hs]; rfl) (by decide) hv
      omega
    | cons c u => exact h (ESC :: ESC :: c :: u) k v (by rw [hs]; rfl) (by simpa using hu) hv
  · intro h u k v hs hu hv
    match u, k with
    | [], 0 => rfl
    | [], 1 =>
      obtain rfl : ESC :: s = v := (List.cons.inj hs).2
      exact absurd rfl hv
    | [], k + 2 =>
      have heven : k % 2 = 0 := h [] k v (List.cons.inj (List.cons.inj hs).2).2 (by decide) hv
      omega
    | [c], _ => exact absurd (congrArg some (List.cons.inj hs).1.symm) hu
    | c :: d :: u, k =>
      obtain ⟨rfl, htail⟩ := List.cons.inj (List.cons.inj hs).2
      refine h u k v htail (fun hlast => hu ?_) hv
      rw [List.getLast?_cons, List.getLast?_cons, hlast]
      rfl

/-- A first run is not a single ESC. -/
theorem WellStuffed.exists_of_esc {s : List Byte} (h : WellStuffed (ESC :: s)) : ∃ s', s = ESC :: s' := by
  by_contra hne
  have hhead : s.head? ≠ some ESC := fun hs => hne ⟨s.tail, List.eq_cons_of_mem_head? hs⟩
  exact absurd (h [] 1 s rfl (by decide) hhead) (by decide)

theorem wellStuffed_stuff (t : List Byte) : WellStuffed (stuff t) := by
  induction t with
  | nil => exact wellStuffed_nil
  | cons b t ih =>
    by_cases hb : b = ESC
    · subst hb; rw [stuff_cons_esc]; exact wellStuffed_esc_esc.mpr ih
    · rw [stuff_cons_of_ne hb]; exact (wellStuffed_cons_of_ne hb).mpr ih

theorem WellStuffed.stuff_destuff {s : List Byte} (h : WellStuffed s) : stuff (destuff s) = s := by
  induction s using destuff.induct with
  | case1 => rfl
  | case2 b =>
    have hb : b ≠ ESC := by
      rintro rfl
      obtain ⟨_, hnil⟩ := h.exists_of_esc
      cases hnil
    exact stuff_cons_of_ne hb []
  | case3 c t ih =>
    obtain ⟨_, hsecond⟩ := h.exists_of_esc
    obtain ⟨rfl, rfl⟩ := List.cons.inj hsecond
    rw [destuff_cons_esc, stuff_cons_esc, ih (wellStuffed_esc_esc.mp h)]
  | case4 b c t hb ih => rw [destuff_cons_of_ne hb, stuff_cons_of_ne hb, ih ((wellStuffed_cons_of_ne hb).mp h)]

theorem exists_eq_stuff_iff (s : List Byte) : (∃ t, s = stuff t) ↔ WellStuffed s :=
  ⟨fun ⟨t, hs⟩ => hs ▸ wellStuffed_stuff t, fun h => ⟨destuff s, h.stuff_destuff.symm⟩⟩

/-- After a well stuffed sequence destuff goes on as from the start. -/
theorem WellStuffed.destuff_append {u : List Byte} (h : WellStuffed u) (v : List Byte) :
    destuff (u ++ v) = destuff u ++ destuff v := by
  obtain ⟨t, rfl⟩ := (exists_eq_stuff_iff u).mpr h
  rw [destuff_stuff_append, destuff_stuff]

/-- Settles O11: the outputs of stuff and the well stuffed sequences are built by the same two rules, and a well stuffed
beginning leaves the scan at the start of the odd run. -/
theorem stuffedSequencesAreTheWellStuffedOnes : Obligations.StuffedSequencesAreTheWellStuffedOnes := by
  refine ⟨exists_eq_stuff_iff, fun _ h => h.stuff_destuff, fun s h hround => h (hround ▸ wellStuffed_stuff _), ?_, ?_⟩
  · intro u v b k hu _ _
    rw [List.append_assoc, hu.destuff_append, destuff_odd_run, List.tail_cons, List.append_assoc]
  · intro u k hu _
    have hrun : destuff (List.replicate (2 * k + 1) ESC) = List.replicate (k + 1) ESC := by
      simpa using destuff_odd_run k []
    rw [hu.destuff_append, hrun]

end Sys2Proof.Machine
end

/-! ## The EXEC step of STUFF and DESTUFF (R86, R87) -/

section
namespace Sys2Proof.Machine

theorem exec_of_sel (i : Instr) {p : Nat} {act : Act} {s : State} (hsel : s.sel = { port := p, act := act }) :
    exec i s = .next (actOf i act p s) := by
  have hselect : s.select p act = s := by rw [State.select, ← hsel]
  exact hselect ▸ exec_select i p act s

theorem stuffEngine_of_exec {p : Nat} {s : State} (hph : (s.port p).phase = .exec) :
    stuffEngine p s = codecExec .stuff (stuff (s.bytesOperand p)) p s := by rw [stuffEngine, hph]

theorem destuffEngine_of_exec {p : Nat} {s : State} (hph : (s.port p).phase = .exec) :
    destuffEngine p s = codecExec .destuff (destuff (s.bytesOperand p)) p s := by rw [destuffEngine, hph]

theorem bytesOperand_length (s : State) (p : Nat) : (s.bytesOperand p).length = s.lenOperand p :=
  slice_length (s.cmdBuf p) 0 (s.lenOperand p)

/-- A terminal step without cleanup is its completion alone (R104). -/
theorem terminate_of_nothing {i : Instr} {code : ResultCode} (hrow : cleanupOf i code = Cleanup.nothing) (p : Nat)
    (app : Byte) (len : Nat) (s : State) : terminate i p code app len s = complete p code app len s := by
  rw [terminate, hrow, cleanup_nothing]

section
variable {i : Instr} {out : List Byte} {p : Nat} {s : State}

/-- An output that fits is stored in OUT_BUF and reported with its length (R86, R87). -/
theorem codecExec_of_fits (hp : p < s.ports.length) (hrow : cleanupOf i .ok = Cleanup.nothing)
    (hfits : out.length ≤ s.cfg.outCap) :
    Reports p .ok 0x00#8 out.length s (codecExec i out p s) ∧ OutHolds p out (codecExec i out p s) ∧
      BuffersSameOutsideOut p out.length s (codecExec i out p s) ∧ OtherPortsSame p s (codecExec i out p s) ∧
      SharedSame s (codecExec i out p s) := by
  have hexec : codecExec i out p s = complete p .ok 0x00#8 out.length (s.writeOut p out) := by
    rw [codecExec, if_neg (Nat.not_lt.mpr hfits), terminate_of_nothing hrow]
  obtain ⟨hothers, _, hshared⟩ := updPort_frame (s.writeOut p out) p _
  rw [hexec]
  exact ⟨port_complete (s := s.writeOut p out) _ _ _ hp, fun k hk => outBuf_writeOut s p k out hk,
    fun _ ha => byteAt_writeOut_outside s p out ha, hothers, hshared⟩

/-- An output that does not fit ends in ALLOCATION_FAILED, and no byte is stored (R86, R87). -/
theorem codecExec_of_overflow (hp : p < s.ports.length) (hrow : cleanupOf i .allocationFailed = Cleanup.nothing)
    (hlong : s.cfg.outCap < out.length) :
    Reports p .allocationFailed 0x00#8 0 s (codecExec i out p s) ∧ BuffersSame s (codecExec i out p s) ∧
      OtherPortsSame p s (codecExec i out p s) ∧ SharedSame s (codecExec i out p s) := by
  have hexec : codecExec i out p s = complete p .allocationFailed 0x00#8 0 s := by
    rw [codecExec, if_pos hlong, raiseFail, terminate_of_nothing hrow]
  obtain ⟨hothers, hbuffers, hshared⟩ := updPort_frame s p _
  rw [hexec]
  exact ⟨port_complete _ _ _ hp, hbuffers, hothers, hshared⟩

end

/-- Settles O14: the EXEC step is `codecExec` of the stuffed operand, whose length is R82's. -/
theorem stuffExecWritesTheStuffedOperand : Obligations.StuffExecWritesTheStuffedOperand := by
  intro s p hp hsel hph out
  have hexec : exec .stuff s = .next (codecExec .stuff out p s) :=
    (exec_of_sel .stuff hsel).trans (congrArg _ (stuffEngine_of_exec hph))
  have hlen : s.lenOperand p + (s.bytesOperand p).count ESC = out.length := by
    rw [stuff_length, bytesOperand_length]
  rw [hlen]
  exact ⟨fun hfits => ⟨_, hexec, codecExec_of_fits hp rfl hfits⟩,
    fun hlong => ⟨_, hexec, codecExec_of_overflow hp rfl hlong⟩⟩

/-- Settles O15: the EXEC step is `codecExec` of the destuffed operand, which is no longer than the operand. -/
theorem destuffExecWritesTheDestuffedOperand : Obligations.DestuffExecWritesTheDestuffedOperand := by
  intro s p hp hsel hph hcap out
  have hexec : exec .destuff s = .next (codecExec .destuff out p s) :=
    (exec_of_sel .destuff hsel).trans (congrArg _ (destuffEngine_of_exec hph))
  have hout : out.length ≤ s.lenOperand p := bytesOperand_length s p ▸ destuff_length_le (s.bytesOperand p)
  exact ⟨fun hfits => ⟨_, hexec, codecExec_of_fits hp rfl hfits⟩,
    fun hlong => ⟨Nat.lt_of_lt_of_le hlong (Nat.le_trans hout hcap), _, hexec, codecExec_of_overflow hp rfl hlong⟩⟩

end Sys2Proof.Machine
end

/-! ## The engine steps of the Transport Engine up to TX_WAIT (R57, R58, R71 to R73, R88, R89, R92) -/

section
namespace Sys2Proof.Machine

/-! ### The engine of each command, phase by phase -/

section
variable {p : Nat} {s : State} {i : Instr}

/-- CMD_REPLY and TLM_REQ wait for the token in the same way. -/
theorem engineOf_tokenWait (hi : i = .cmdReply ∨ i = .tlmReq) (hph : (s.port p).phase = .tokenWait) :
    engineOf i p s = awaitToken p (fun t => t.toPhase p .build) s := by
  rcases hi with rfl | rfl
  · rw [engineOf, cmdReplyEngine, hph]
  · rw [engineOf, tlmReqEngine, hph]

/-- CMD_REPLY and CMD_NOREPLY build the same frame. -/
theorem engineOf_build (hi : i = .cmdReply ∨ i = .cmdNoreply) (hph : (s.port p).phase = .build) :
    engineOf i p s = buildCommand i p s := by
  rcases hi with rfl | rfl
  · rw [engineOf, cmdReplyEngine, hph]
  · rw [engineOf, cmdNoreplyEngine, hph]

theorem tlmReqEngine_build (hph : (s.port p).phase = .build) : tlmReqEngine p s = buildTelemetry p s := by
  rw [tlmReqEngine, hph]

theorem cmdReplyEngine_rxReply (hph : (s.port p).phase = .rxReply) :
    cmdReplyEngine p s = awaitByte (rxReplyByte p) s := by rw [cmdReplyEngine, hph]

theorem tlmReqEngine_rxTlm (hph : (s.port p).phase = .rxTlm) : tlmReqEngine p s = rxTlmStep p s := by
  rw [tlmReqEngine, hph]

/-- The registers of a port once the frame of its command is out: CMD_NOREPLY completes, the others begin to receive
(R88, R89, R92). -/
def Port.sent : Instr → Port → Port
  | .cmdReply, x => { x with r := 0, phase := .rxReply }
  | .tlmReq, x => { x with r := 0, tidx := false, phase := .rxTlm }
  | _, x => { x with result := { code := .ok, app := 0x00#8, length := 0#16 }, phase := .idle, done := true }

theorem engineOf_txWait (hi : i = .cmdReply ∨ i = .cmdNoreply ∨ i = .tlmReq) (hph : (s.port p).phase = .txWait) :
    engineOf i p s = awaitTxDone (fun t => t.updPort p (Port.sent i)) s := by
  rcases hi with rfl | rfl | rfl
  · rw [engineOf, cmdReplyEngine, hph]; rfl
  · rw [engineOf, cmdNoreplyEngine, hph]; rfl
  · rw [engineOf, tlmReqEngine, hph]; rfl

/-! ### Waits whose condition is known, and frames whose length is -/

theorem awaitToken_of_free (k : State → State) (hfree : s.token.held = false) :
    awaitToken p k s = k (acquire p s) := by simp [awaitToken, hfree]

theorem awaitToken_of_held (k : State → State) (hheld : s.token.held = true) : awaitToken p k s = s := if_pos hheld

theorem awaitTxDone_of_set (k : State → State) (hset : s.txDone = true) :
    awaitTxDone k s = k { s with txDone := false } := if_pos hset

theorem awaitTxDone_of_clear (k : State → State) (hclear : s.txDone = false) : awaitTxDone k s = s := by
  simp [awaitTxDone, hclear]

theorem awaitByte_of_cons {b : Byte} {rest : List Byte} (k : Byte → State → State) (hq : s.q = b :: rest) :
    awaitByte k s = k b { s with q := rest } := by rw [awaitByte, hq]

theorem buildCommand_of_fits (hfits : (frameCmd s.cfg (s.bytesOperand p)).length ≤ s.cfg.txCap) :
    buildCommand i p s = (handoff (frameCmd s.cfg (s.bytesOperand p)) s).toPhase p .txWait :=
  if_neg (Nat.not_lt.mpr hfits)

theorem buildCommand_of_overflow (hlong : s.cfg.txCap < (frameCmd s.cfg (s.bytesOperand p)).length) :
    buildCommand i p s = raiseFail i p .allocationFailed s := if_pos hlong

theorem buildTelemetry_of_fits (hfits : s.lenOperand p ≤ s.cfg.outCap) :
    buildTelemetry p s = (handoff (frameTlm s.cfg (s.idOperand p)) s).toPhase p .txWait :=
  if_neg (Nat.not_lt.mpr hfits)

theorem buildTelemetry_of_overflow (hlong : s.cfg.outCap < s.lenOperand p) :
    buildTelemetry p s = raiseFail .tlmReq p .allocationFailed s := if_pos hlong

/-! ### The terminal steps that drain and release -/

/-- With the token, a terminal step of R104 that drains and releases is a completion on an empty Q and a free token. -/
theorem terminate_of_drainAndRelease {code : ResultCode} (hrow : cleanupOf i code = Cleanup.drainAndRelease)
    (hown : s.token = { held := true, owner := p }) (app : Byte) (len : Nat) :
    terminate i p code app len s =
      complete p code app len { s with q := [], token := { held := false, owner := 0 } } := by
  have hrelease : release p (drain s) = { drain s with token := Token.free } := release_of_owner hown
  rw [terminate, hrow, cleanup_drainAndRelease, hrelease]
  rfl

/-- The rest of the block after a step of port p that drains Q and releases the token (R104). -/
structure Drained (p : Nat) (s t : State) : Prop where
  q : t.q = []
  token : t.token = { held := false, owner := 0 }
  others : OtherPortsSame p s t
  flags : FlagsSame s t
  wire : WireSame s t
  setting : SettingSame s t

theorem Drained.of_terminate {code : ResultCode} (hrow : cleanupOf i code = Cleanup.drainAndRelease)
    (hown : s.token = { held := true, owner := p }) (app : Byte) (len : Nat) :
    Drained p s (terminate i p code app len s) := by
  rw [terminate_of_drainAndRelease hrow hown]
  obtain ⟨hothers, _, htoken, hq, hflags, hwire, hsetting⟩ :=
    updPort_frame { s with q := [], token := { held := false, owner := 0 } } p fun x =>
      { x with result := { code := code, app := app, length := BitVec.ofNat 16 len }, phase := .idle, done := true }
  exact ⟨hq, htoken, hothers, hflags, hwire, hsetting⟩

/-- An error of a command that holds the token (R103, R104). -/
theorem raiseFail_drains {code : ResultCode} (hp : p < s.ports.length)
    (hrow : cleanupOf i code = Cleanup.drainAndRelease) (hown : s.token = { held := true, owner := p }) :
    Reports p code 0x00#8 0 s (raiseFail i p code s) ∧ BuffersSame s (raiseFail i p code s) ∧
      Drained p s (raiseFail i p code s) :=
  ⟨port_terminate i _ _ _ hp, byteAt_terminate i _ _ _ _ s, .of_terminate hrow hown _ _⟩

end

/-! ### The statements -/

/-- Settles O16: the engine's side of TOKEN_WAIT, with the token free and with the token held. -/
theorem tokenWaitTakesAFreeToken : Obligations.TokenWaitTakesAFreeToken := by
  intro s p i hi hp hsel hph
  have hexec : exec i s = .next (awaitToken p (fun t => t.toPhase p .build) s) :=
    (exec_of_sel i hsel).trans (congrArg _ (engineOf_tokenWait hi hph))
  refine ⟨fun hfree => ?_, fun hheld => ?_⟩
  · obtain ⟨hothers, hbuffers, htoken, hq, hflags, hwire, hsetting⟩ :=
      updPort_frame (acquire p s) p fun x => { x with phase := .build }
    rw [hexec, awaitToken_of_free _ hfree]
    exact ⟨_, rfl, htoken, port_updPort_same (s := acquire p s) _ hp, hothers, hbuffers, hq, hflags, hwire, hsetting⟩
  · rw [hexec, awaitToken_of_held _ hheld]

/-- From BUILD to TX_WAIT: the frame is on the wire and nothing else of the shared state changed (R72). -/
theorem handoff_toTxWait (f : List Byte) {p : Nat} {s : State} (hp : p < s.ports.length) :
    let t := (handoff f s).toPhase p .txWait
    t.txLog = s.txLog ++ [f] ∧ t.txPend = s.txPend + 1 ∧ t.port p = { s.port p with phase := .txWait } ∧
      OtherPortsSame p s t ∧ BuffersSame s t ∧ t.token = s.token ∧ t.q = s.q ∧ FlagsSame s t ∧ SettingSame s t := by
  obtain ⟨hothers, hbuffers, htoken, hq, hflags, ⟨hlog, hpend⟩, hsetting⟩ :=
    updPort_frame (handoff f s) p fun x => { x with phase := .txWait }
  exact ⟨hlog, hpend, port_updPort_same (s := handoff f s) _ hp, hothers, hbuffers, htoken, hq, hflags, hsetting⟩

/-- Settles O17: a frame within TX_CAP is handed off; of the errors only that of CMD_REPLY has a row in R104. -/
theorem buildHandsOffTheCommandFrame : Obligations.BuildHandsOffTheCommandFrame := by
  intro s p i hi hp hsel hph frame
  have hexec : exec i s = .next (buildCommand i p s) :=
    (exec_of_sel i hsel).trans (congrArg _ (engineOf_build hi hph))
  refine ⟨fun hfits => ?_, fun hlong hown => ?_⟩
  · rw [hexec, buildCommand_of_fits hfits]
    exact ⟨_, rfl, handoff_toTxWait frame hp⟩
  · rw [hexec, buildCommand_of_overflow hlong]
    rcases hi with rfl | rfl
    · obtain ⟨hreport, hbuffers, hdrained⟩ :=
        raiseFail_drains (i := .cmdReply) (code := .allocationFailed) hp rfl (hown rfl)
      exact ⟨_, rfl, hreport, hdrained.q, hdrained.token, hdrained.others, hbuffers, hdrained.flags, hdrained.wire,
        hdrained.setting⟩
    · obtain ⟨hothers, hbuffers, htoken, hq, hshared⟩ := updPort_frame s p fun x =>
        { x with result := { code := .allocationFailed, app := 0x00#8, length := 0#16 }, phase := .idle, done := true }
      rw [raiseFail, terminate_of_nothing rfl]
      exact ⟨_, rfl, port_complete _ _ _ hp, hq, htoken, hothers, hbuffers, hshared⟩

/-- Settles O18: the request is handed off, or its error drains and releases. -/
theorem buildHandsOffTheTelemetryRequest : Obligations.BuildHandsOffTheTelemetryRequest := by
  intro s p hp hsel hph
  have hexec : exec .tlmReq s = .next (buildTelemetry p s) :=
    (exec_of_sel .tlmReq hsel).trans (congrArg _ (tlmReqEngine_build hph))
  refine ⟨fun hfits => ?_, fun hlong hown => ?_⟩
  · rw [hexec, buildTelemetry_of_fits hfits]
    exact ⟨_, rfl, handoff_toTxWait _ hp⟩
  · obtain ⟨hreport, hbuffers, hdrained⟩ :=
      raiseFail_drains (i := .tlmReq) (code := .allocationFailed) hp rfl hown
    rw [hexec, buildTelemetry_of_overflow hlong]
    exact ⟨_, rfl, hreport, hdrained.q, hdrained.token, hdrained.others, hbuffers, hdrained.flags, hdrained.wire,
      hdrained.setting⟩

/-- Settles O19: the end of TX_WAIT clears the signal and sets the registers of `Port.sent`. -/
theorem txWaitConsumesTheSignal : Obligations.TxWaitConsumesTheSignal := by
  intro s p i hi hp hsel hph
  have hexec : exec i s = .next (awaitTxDone (fun t => t.updPort p (Port.sent i)) s) :=
    (exec_of_sel i hsel).trans (congrArg _ (engineOf_txWait hi hph))
  refine ⟨fun hset => ?_, fun hclear => ?_⟩
  · have hport : (State.updPort { s with txDone := false } p (Port.sent i)).port p = Port.sent i (s.port p) :=
      port_updPort_same (s := { s with txDone := false }) _ hp
    obtain ⟨hothers, hbuffers, htoken, hq, ⟨hdone, hovf, hmode, htype⟩, hwire, hsetting⟩ :=
      updPort_frame { s with txDone := false } p (Port.sent i)
    rw [hexec, awaitTxDone_of_set _ hset]
    exact ⟨_, rfl, hdone, fun hi => hi ▸ hport, fun hi => hi ▸ hport, fun hi => hi ▸ hport, hothers, hbuffers, htoken,
      hq, hovf, hmode, htype, hwire, hsetting⟩
  · rw [hexec, awaitTxDone_of_clear _ hclear]

end Sys2Proof.Machine
end

/-! ## The receive steps of CMD_REPLY and TLM_REQ (R59, R88, R90, R92) -/

section
namespace Sys2Proof.Machine

/-! ### Slices -/

theorem slice_congr {f g : Nat → Byte} {i j : Nat} (h : ∀ k < j, f k = g k) : slice f i j = slice g i j := by
  refine List.map_congr_left fun k hk => h (i + k) ?_
  have hlt := List.mem_range.mp hk
  omega

theorem slice_succ (f : Nat → Byte) (n : Nat) : slice f 0 (n + 1) = slice f 0 n ++ [f n] := by
  simp [slice, List.range_succ]

theorem getD_slice (f : Nat → Byte) {k n : Nat} (hk : k < n) (d : Byte) : (slice f 0 n).getD k d = f k := by
  have hlt : k < (slice f 0 n).length := by rwa [slice_length]
  rw [List.getD_eq_getElem _ _ hlt, slice_getElem, Nat.zero_add]

/-! ### One byte stored in RXB -/

/-- Registers with b stored at the end of what was received (R88, R92). -/
def Port.storing (b : Byte) (x : Port) : Port := { x with rxb := x.rxb.write x.r b, r := x.r + 1 }

/-- s with b stored at the end of what port p received, and TIDX of p set. -/
def State.storing (s : State) (p : Nat) (b : Byte) (y : Bool) : State :=
  s.setPort p { (s.port p).storing b with tidx := y }

/-- The registers of a completion, RXB and RESULT apart, from those that it reports. -/
theorem port_eq_of_storing {x y : Port} {b : Byte} {res : Result}
    (h : y = { x.storing b with result := res, phase := .idle, done := true }) :
    y = { x with rxb := y.rxb, r := x.r + 1, result := y.result, phase := .idle, done := true } := by
  rw [h]
  rfl

section
variable {p : Nat} {s : State} {b : Byte} {y : Bool}

theorem port_storing (hp : p < s.ports.length) : (s.storing p b y).port p = { (s.port p).storing b with tidx := y } :=
  port_setPort_same _ hp

theorem rxbByte_storing (hp : p < s.ports.length) (k : Nat) :
    (s.storing p b y).rxbByte p k = if k = (s.port p).r then b else s.rxbByte p k := by
  rw [State.rxbByte, port_storing hp]
  split
  · next hk => rw [hk, Port.storing, Memory.read_write_same]; rfl
  · next hk => rw [Port.storing, Memory.read_write_ne _ _ hk]; rfl

/-- What port p received so far, and then b. -/
theorem slice_storing (hp : p < s.ports.length) :
    slice ((s.storing p b y).rxbByte p) 0 ((s.port p).r + 1) = slice (s.rxbByte p) 0 (s.port p).r ++ [b] := by
  have hbefore : ∀ k < (s.port p).r, (s.storing p b y).rxbByte p k = s.rxbByte p k := fun k hk => by
    rw [rxbByte_storing hp, if_neg (Nat.ne_of_lt hk)]
  rw [slice_succ, slice_congr hbefore, rxbByte_storing hp, if_pos rfl]

theorem lenOperand_storing (hp : p < s.ports.length) : (s.storing p b y).lenOperand p = s.lenOperand p := by
  rw [lenOperand_eq, port_storing hp]
  rfl

/-- A byte stored while the operation goes on. -/
theorem storing_effect (hp : p < s.ports.length) (b : Byte) (y : Bool) :
    let t := s.storing p b y
    t.port p = { s.port p with rxb := (t.port p).rxb, r := (s.port p).r + 1, tidx := y } ∧
      (∀ k, t.rxbByte p k = if k = (s.port p).r then b else s.rxbByte p k) ∧ OtherPortsSame p s t ∧
      BuffersSame s t ∧ SharedSame s t := by
  refine ⟨?_, rxbByte_storing hp, updPort_frame s p fun _ => _⟩
  rw [port_storing hp]
  rfl

/-! ### The end of a reception -/

/-- The completion of a command that holds the token, with bytes for OUT_BUF, the registers of p being x (R67, R104). -/
structure Delivers (p : Nat) (x : Port) (app : Byte) (len : Nat) (out : List Byte) (s t : State) : Prop
    extends Drained p s t where
  port : t.port p = { x with result := { code := .ok, app := app, length := BitVec.ofNat 16 len }, phase := .idle,
                             done := true }
  stored : OutHolds p out t
  outside : BuffersSameOutsideOut p out.length s t

theorem terminate_delivers {i : Instr} (hp : p < s.ports.length) (hrow : cleanupOf i .ok = Cleanup.drainAndRelease)
    (hown : s.token = { held := true, owner := p }) (x : Port) (app : Byte) (len : Nat) (out : List Byte) :
    Delivers p x app len out s (terminate i p .ok app len ((s.setPort p x).writeOut p out)) := by
  have hdrained : Drained p ((s.setPort p x).writeOut p out) _ :=
    .of_terminate (s := (s.setPort p x).writeOut p out) hrow hown app len
  refine { hdrained with others := fun p' hne => ?_, port := ?_, stored := fun k hk => ?_, outside := fun a ha => ?_ }
  · rw [port_terminate_ne _ _ _ _ hne, port_writeOut, port_setPort_ne x hne]
  · rw [port_terminate _ _ _ _ (by simpa using hp), port_writeOut, port_setPort_same x hp]
  · rw [State.outBuf, byteAt_terminate]
    exact outBuf_writeOut (s.setPort p x) p k out hk
  · rw [byteAt_terminate, byteAt_writeOut_outside _ _ _ ha, byteAt_setPort]

/-! ### What each popped byte does -/

theorem rxReplyByte_of_more (hp : p < s.ports.length) (hmore : (s.port p).r + 1 ≠ s.cfg.replyLen) :
    rxReplyByte p b s = s.storing p b (s.port p).tidx := by
  refine if_neg (c := ((s.storing p b (s.port p).tidx).port p).r = s.cfg.replyLen) ?_
  rwa [port_storing hp]

/-- The last byte of a reply: the raw reply goes to OUT_BUF, its byte 3 to APP_STATUS (R59, R88). -/
theorem rxReplyByte_of_last (hp : p < s.ports.length) (hlast : (s.port p).r + 1 = s.cfg.replyLen)
    (hlen : 3 < s.cfg.replyLen) :
    let reply := slice (s.rxbByte p) 0 (s.port p).r ++ [b]
    rxReplyByte p b s = terminate .cmdReply p .ok (reply.getD 3 0x00#8) s.cfg.replyLen
      ((s.storing p b (s.port p).tidx).writeOut p reply) := by
  intro reply
  have hreply : slice ((s.storing p b (s.port p).tidx).rxbByte p) 0 s.cfg.replyLen = reply := by
    rw [← hlast]
    exact slice_storing hp
  have happ : (s.storing p b (s.port p).tidx).rxbByte p STATUS_IDX = reply.getD 3 0x00#8 := by
    rw [← hreply]
    exact (getD_slice _ hlen _).symm
  rw [← happ, ← hreply]
  refine if_pos (c := ((s.storing p b (s.port p).tidx).port p).r = s.cfg.replyLen) ?_
  rwa [port_storing hp]

/-- The last byte of a reply completes CMD_REPLY (R88, R104). -/
theorem rxReplyByte_last_effect (hp : p < s.ports.length) (hlast : (s.port p).r + 1 = s.cfg.replyLen)
    (hlen : 3 < s.cfg.replyLen) (hown : s.token = { held := true, owner := p }) :
    let reply := slice (s.rxbByte p) 0 (s.port p).r ++ [b]
    Delivers p ((s.port p).storing b) (reply.getD 3 0x00#8) s.cfg.replyLen reply s (rxReplyByte p b s) := by
  intro reply
  rw [rxReplyByte_of_last hp hlast hlen]
  exact terminate_delivers hp rfl hown _ _ _ _

/-- RX_TLM stores the byte with the new TIDX of its scan, and finishes where the scan has FOUND the terminator. -/
theorem rxTlmByte_eq (p : Nat) (b : Byte) (s : State) : rxTlmByte p b s =
    if (scanByte s.cfg.eom (s.port p).tidx b).1 then
      finishTelemetry p (s.storing p b (scanByte s.cfg.eom (s.port p).tidx b).2)
    else s.storing p b (scanByte s.cfg.eom (s.port p).tidx b).2 := by
  unfold rxTlmByte storeReplyByte
  dsimp only
  rw [updPort_eq s, updPort_setPort]
  rfl

theorem rxTlmByte_of_found (hfound : (s.port p).tidx = true ∧ b = s.cfg.eom) :
    rxTlmByte p b s = finishTelemetry p (s.storing p b (s.port p).tidx) := by
  obtain ⟨htidx, rfl⟩ := hfound
  simp [rxTlmByte_eq, scanByte, htidx]

theorem rxTlmByte_of_not_found (hnot : ¬ ((s.port p).tidx = true ∧ b = s.cfg.eom)) :
    rxTlmByte p b s = s.storing p b (if (s.port p).tidx then false else decide (b = ESC)) := by
  rw [rxTlmByte_eq]
  rcases scanByte_cases s.cfg.eom (s.port p).tidx b with ⟨htidx, hb, _⟩ | ⟨htidx, _, e⟩ | ⟨htidx, e⟩
  · exact absurd ⟨htidx, hb⟩ hnot
  · rw [e, htidx]; rfl
  · rw [e, htidx]; rfl

/-- The body is what came between the header and the ESC of the terminator (R92). -/
theorem finishTelemetry_storing (hp : p < s.ports.length) :
    let out := (destuff (slice (s.rxbByte p) s.cfg.tlmHdrLen ((s.port p).r - 1))).take (s.lenOperand p)
    finishTelemetry p (s.storing p b y) =
      terminate .tlmReq p .ok 0x00#8 out.length ((s.storing p b y).writeOut p out) := by
  have hr : ((s.storing p b y).port p).r - 2 = (s.port p).r - 1 := by rw [port_storing hp]; rfl
  have hbefore : ∀ k < (s.port p).r - 1, (s.storing p b y).rxbByte p k = s.rxbByte p k := fun k hk => by
    rw [rxbByte_storing hp, if_neg (by omega)]
  unfold finishTelemetry
  dsimp only
  rw [hr, lenOperand_storing hp, slice_congr hbefore]
  rfl

/-- The terminator completes TLM_REQ (R92, R104). -/
theorem rxTlmByte_found_effect (hp : p < s.ports.length) (hfound : (s.port p).tidx = true ∧ b = s.cfg.eom)
    (hown : s.token = { held := true, owner := p }) :
    let out := (destuff (slice (s.rxbByte p) s.cfg.tlmHdrLen ((s.port p).r - 1))).take (s.lenOperand p)
    Delivers p ((s.port p).storing b) 0x00#8 out.length out s (rxTlmByte p b s) := by
  intro out
  rw [rxTlmByte_of_found hfound, finishTelemetry_storing hp]
  exact terminate_delivers hp rfl hown _ _ _ _

theorem rxTlmStep_of_full (hfull : (s.port p).r = s.cfg.rxbCap) :
    rxTlmStep p s = raiseFail .tlmReq p .incorrectLength s := if_pos hfull

theorem rxTlmStep_of_byte {rest : List Byte} (hroom : (s.port p).r ≠ s.cfg.rxbCap) (hq : s.q = b :: rest) :
    rxTlmStep p s = rxTlmByte p b { s with q := rest } := (if_neg hroom).trans (awaitByte_of_cons _ hq)

end

/-! ### The statements -/

/-- Settles O20: the byte is stored, and the one that fills the reply ends the command. -/
theorem replyBytesAreCollectedUntilTheLast : Obligations.ReplyBytesAreCollectedUntilTheLast := by
  intro s p b rest hlegal hp hsel hph hq reply
  obtain ⟨_, _, _, _, _, ⟨hfour, _, _⟩, _⟩ := (legal_iff s.cfg).mp hlegal
  have hexec : exec .cmdReply s = .next (rxReplyByte p b { s with q := rest }) :=
    (exec_of_sel .cmdReply hsel).trans
      (congrArg _ ((cmdReplyEngine_rxReply hph).trans (awaitByte_of_cons _ hq)))
  refine ⟨fun hmore => ?_, fun hlast hown => ?_⟩
  · obtain ⟨hport, hrxb, hothers, hbuffers, htoken, hq', hflags, hwire, hsetting⟩ :=
      storing_effect (s := { s with q := rest }) hp b (s.port p).tidx
    rw [hexec, rxReplyByte_of_more (s := { s with q := rest }) hp hmore]
    exact ⟨_, rfl, hq', hport, hrxb, hothers, hbuffers, htoken, hflags, hwire, hsetting⟩
  · have hlen : reply.length = s.cfg.replyLen := by simp [reply, slice_length, hlast]
    have hdelivers := rxReplyByte_last_effect (s := { s with q := rest }) (b := b) hp hlast hfour hown
    exact ⟨_, hexec, congrArg Port.result hdelivers.port, port_eq_of_storing hdelivers.port, hlen, hdelivers.stored,
      hlen ▸ hdelivers.outside, hdelivers.q, hdelivers.token, hdelivers.others, hdelivers.flags, hdelivers.wire,
      hdelivers.setting⟩

/-- Settles O21: the bound comes before the pop, and of the scans only FOUND ends the command. -/
theorem telemetryBytesAreStoredAndScanned : Obligations.TelemetryBytesAreStoredAndScanned := by
  intro s p hp hsel hph hown
  have hexec : exec .tlmReq s = .next (rxTlmStep p s) :=
    (exec_of_sel .tlmReq hsel).trans (congrArg _ (tlmReqEngine_rxTlm hph))
  refine ⟨fun hfull => ?_, fun b rest hroom hq => ⟨fun hfound => ?_, fun hnot => ?_⟩⟩
  · obtain ⟨hreport, hbuffers, hdrained⟩ :=
      raiseFail_drains (i := .tlmReq) (code := .incorrectLength) hp rfl hown
    rw [hexec, rxTlmStep_of_full hfull]
    exact ⟨_, rfl, hreport, hdrained.q, hdrained.token, hdrained.others, hbuffers, hdrained.flags, hdrained.wire,
      hdrained.setting⟩
  · intro out
    have hdelivers := rxTlmByte_found_effect (s := { s with q := rest }) hp hfound hown
    rw [hexec, rxTlmStep_of_byte hroom hq]
    exact ⟨_, rfl, congrArg Port.result hdelivers.port, port_eq_of_storing hdelivers.port, hdelivers.stored,
      hdelivers.outside, hdelivers.q, hdelivers.token, hdelivers.others, hdelivers.flags, hdelivers.wire,
      hdelivers.setting⟩
  · obtain ⟨hport, hrxb, hothers, hbuffers, htoken, hq', hflags, hwire, hsetting⟩ :=
      storing_effect (s := { s with q := rest }) hp b (if (s.port p).tidx then false else decide (b = ESC))
    rw [hexec, rxTlmStep_of_byte hroom hq, rxTlmByte_of_not_found (s := { s with q := rest }) hnot]
    exact ⟨_, rfl, hq', hport, hrxb, hothers, hbuffers, htoken, hflags, hwire, hsetting⟩

end Sys2Proof.Machine
end

/-! ## A reception byte by byte, and the whole reply to TLM_REQ (R59, R88, R90 to R92) -/

section
namespace Sys2Proof.Machine

/-! ### Runs of several steps -/

theorem core_run_add (M : Host.Core) {x y : M.State} (j k : Nat) (h : M.run j x = .next y) :
    M.run (j + k) x = M.run k y := by
  induction j generalizing x with
  | zero =>
    cases h
    rw [Nat.zero_add]
  | succ j ih =>
    rw [Nat.succ_add, Host.Core.run]
    rw [Host.Core.run] at h
    split at h
    · exact ih h
    · cases h
    · cases h

theorem run_add {s t : State} {j : Nat} (h : run j s = .next t) (k : Nat) : run (j + k) s = run k t :=
  core_run_add Sys2Proof.core j k h

theorem run_one {s t : State} (h : step s = .next t) : run 1 s = .next t := run_succ h 0

theorem engineSteps_add (p j k : Nat) : engineSteps p (j + k) = engineSteps p j ++ engineSteps p k :=
  List.replicate_add j k _

/-! ### A port in the phase in which its command succeeds -/

/-- Port p of a legal block is in the last phase of its command i. -/
structure InLastPhase (i : Instr) (p : Nat) (s : State) : Prop where
  legal : s.cfg.legal = true
  op : (s.port p).op = opcodeOf i
  phase : (s.port p).phase = lastPhase i

/-- s in the turn of the engine of port p, the schedule after it being more. -/
def State.turn (s : State) (p : Nat) (more : List Event) : State :=
  { s with sched := more, sel := { port := p, act := .engine } }

/-- s in the turn of the engine of port p which has popped a byte, Q after it being rest. -/
def State.popped (s : State) (p : Nat) (rest : List Byte) (more : List Event) : State :=
  { s.turn p more with q := rest }

theorem FlagsSame.trans {s t u : State} (h : FlagsSame s t) (h' : FlagsSame t u) : FlagsSame s u := by
  obtain ⟨hdone, hovf, hmode, htype⟩ := h
  obtain ⟨hdone', hovf', hmode', htype'⟩ := h'
  exact ⟨hdone'.trans hdone, hovf'.trans hovf, hmode'.trans hmode, htype'.trans htype⟩

theorem WireSame.trans {s t u : State} (h : WireSame s t) (h' : WireSame t u) : WireSame s u := by
  obtain ⟨hlog, hpend⟩ := h
  obtain ⟨hlog', hpend'⟩ := h'
  exact ⟨hlog'.trans hlog, hpend'.trans hpend⟩

/-- From s to t, port p popped bs and stored it behind what it had received; the rest of the block is as it was, but for
the schedule and the step selected. -/
structure Collects (p : Nat) (bs : List Byte) (s t : State) : Prop where
  q : s.q = bs ++ t.q
  port : t.port p =
    { s.port p with rxb := (t.port p).rxb, r := (s.port p).r + bs.length, tidx := (t.port p).tidx }
  received : slice (t.rxbByte p) 0 (t.port p).r = slice (s.rxbByte p) 0 (s.port p).r ++ bs
  cfg : t.cfg = s.cfg
  tick : t.tick = s.tick
  epoch : t.epoch = s.epoch
  token : t.token = s.token
  others : OtherPortsSame p s t
  buffers : BuffersSame s t
  flags : FlagsSame s t
  wire : WireSame s t

section
variable {i : Instr} {p : Nat} {s t u : State} {bs cs : List Byte} {b : Byte} {rest : List Byte} {more : List Event}

theorem InLastPhase.busy (h : InLastPhase i p s) : s.busy p = true := by
  rw [State.busy, h.phase]
  cases i <;> rfl

theorem InLastPhase.lt_length (h : InLastPhase i p s) : p < s.ports.length := lt_length_of_busy h.busy

/-- The engine's turn of an operation in progress (R66). -/
theorem step_engine (hlegal : s.cfg.legal = true) (hbusy : s.busy p = true) (hop : (s.port p).op = opcodeOf i)
    (hsched : s.sched = .engine p :: more) : step s = .next (engineOf i p (s.turn p more)) :=
  ((stepRunsTheOperationInProgress s p i more hlegal hbusy hop).1 hsched).trans (exec_of_sel (s := s.turn p more) i rfl)

theorem InLastPhase.step_engine (h : InLastPhase i p s) (hsched : s.sched = .engine p :: more) :
    step s = .next (engineOf i p (s.turn p more)) := Machine.step_engine h.legal h.busy h.op hsched

namespace Collects

theorem refl (p : Nat) (s : State) : Collects p [] s s :=
  ⟨rfl, rfl, (List.append_nil _).symm, rfl, rfl, rfl, rfl, fun _ _ => rfl, fun _ => rfl, ⟨rfl, rfl, rfl, rfl⟩,
    ⟨rfl, rfl⟩⟩

theorem r_eq (h : Collects p bs s t) : (t.port p).r = (s.port p).r + bs.length := by rw [h.port]

theorem inLastPhase (h : Collects p bs s t) (hs : InLastPhase i p s) : InLastPhase i p t where
  legal := h.cfg ▸ hs.legal
  op := by rw [h.port]; exact hs.op
  phase := by rw [h.port]; exact hs.phase

theorem lenOperand_eq (h : Collects p bs s t) : t.lenOperand p = s.lenOperand p := by
  rw [State.lenOperand, h.port]
  rfl

theorem trans (h : Collects p bs s t) (h' : Collects p cs t u) : Collects p (bs ++ cs) s u where
  q := by rw [h.q, h'.q, List.append_assoc]
  port := by rw [h'.port, h.port, List.length_append, Nat.add_assoc]
  received := by rw [h'.received, h.received, List.append_assoc]
  cfg := h'.cfg.trans h.cfg
  tick := h'.tick.trans h.tick
  epoch := h'.epoch.trans h.epoch
  token := h'.token.trans h.token
  others p' hne := (h'.others p' hne).trans (h.others p' hne)
  buffers a := (h'.buffers a).trans (h.buffers a)
  flags := h.flags.trans h'.flags
  wire := h.wire.trans h'.wire

/-- A byte stored while the operation goes on. -/
theorem of_storing (hp : p < s.ports.length) (hq : s.q = b :: rest) (more : List Event) (y : Bool) :
    Collects p [b] s ((s.popped p rest more).storing p b y) := by
  have hport := port_storing (s := s.popped p rest more) (b := b) (y := y) hp
  refine ⟨hq, by rw [hport]; rfl, ?_, rfl, rfl, rfl, rfl, fun _ hne => port_setPort_ne _ hne, fun _ => rfl,
    ⟨rfl, rfl, rfl, rfl⟩, ⟨rfl, rfl⟩⟩
  rw [hport]
  exact slice_storing (s := s.popped p rest more) hp

/-- A completion after bytes were collected, seen from before them. -/
theorem delivers {x : Port} {app : Byte} {len : Nat} {out : List Byte} (h : Collects p bs s t)
    (h' : Delivers p x app len out { t with sched := more } u) :
    Delivers p x app len out { s with sched := more } u where
  q := h'.q
  token := h'.token
  others p' hne := (h'.others p' hne).trans (h.others p' hne)
  flags := h.flags.trans h'.flags
  wire := h.wire.trans h'.wire
  setting := by
    obtain ⟨hcfg, hsched, htick, hepoch⟩ := h'.setting
    exact ⟨hcfg.trans h.cfg, hsched, htick.trans h.tick, hepoch.trans h.epoch⟩
  port := h'.port
  stored := h'.stored
  outside a ha := (h'.outside a ha).trans (h.buffers a)

end Collects

/-! ### The terminator scan over several bytes (R90, R91) -/

theorem scanThrough_append (eom : Byte) (y : Bool) (u v : List Byte) :
    scanThrough eom y (u ++ v) = (scanThrough eom y u).bind fun y' => scanThrough eom y' v := by
  induction u generalizing y with
  | nil => rfl
  | cons b u ih =>
    rw [List.cons_append, scanThrough, scanThrough]
    split
    · rfl
    · exact ih _

/-- Where the scan passes a list, it passes every beginning of it. -/
theorem scanThrough_take {eom : Byte} {y y' : Bool} {v : List Byte} (h : scanThrough eom y v = some y') (k : Nat) :
    ∃ z, scanThrough eom y (v.take k) = some z := by
  rw [← List.take_append_drop k v, scanThrough_append] at h
  obtain ⟨z, hz, _⟩ := Option.bind_eq_some_iff.mp h
  exact ⟨z, hz⟩

/-- The scan passes a stuffed sequence and leaves TIDX at 0, as ESC is never followed by EOM in it (R91). -/
theorem scanThrough_stuff {eom : Byte} (hne : ESC ≠ eom) (thin : List Byte) :
    scanThrough eom false (stuff thin) = some false := by
  induction thin with
  | nil => rfl
  | cons b thin ih =>
    by_cases hb : b = ESC
    · subst hb
      rw [stuff_cons_esc]
      simpa [scanThrough, scanByte, hne] using ih
    · rw [stuff_cons_of_ne hb]
      simpa [scanThrough, scanByte, hb] using ih

/-! ### RX_TLM over several bytes -/

theorem InLastPhase.step_rxTlm (h : InLastPhase .tlmReq p s) (hsched : s.sched = .engine p :: more)
    (hq : s.q = b :: rest) (hroom : (s.port p).r ≠ s.cfg.rxbCap) :
    step s = .next (rxTlmByte p b (s.popped p rest more)) := by
  have hengine : tlmReqEngine p (s.turn p more) = rxTlmByte p b (s.popped p rest more) :=
    (tlmReqEngine_rxTlm (s := s.turn p more) h.phase).trans (rxTlmStep_of_byte (s := s.turn p more) hroom hq)
  exact (h.step_engine hsched).trans (congrArg _ hengine)

/-- A byte that the scan passes is stored. -/
theorem InLastPhase.step_rxTlm_passed (h : InLastPhase .tlmReq p s) (hsched : s.sched = .engine p :: more)
    (hq : s.q = b :: rest) (hroom : (s.port p).r ≠ s.cfg.rxbCap)
    (hscan : ¬ (scanByte s.cfg.eom (s.port p).tidx b).1 = true) :
    ∃ t, step s = .next t ∧ Collects p [b] s t ∧ (t.port p).tidx = (scanByte s.cfg.eom (s.port p).tidx b).2 ∧
      t.sched = more := by
  have hstored : rxTlmByte p b (s.popped p rest more) =
      (s.popped p rest more).storing p b (scanByte s.cfg.eom (s.port p).tidx b).2 :=
    (rxTlmByte_eq p b _).trans (if_neg hscan)
  exact ⟨_, (h.step_rxTlm hsched hq hroom).trans (congrArg _ hstored), .of_storing h.lt_length hq more _,
    congrArg Port.tidx (port_storing (s := s.popped p rest more) h.lt_length), rfl⟩

theorem InLastPhase.run_rxTlm {y : Bool} (h : InLastPhase .tlmReq p s)
    (hsched : s.sched = engineSteps p bs.length ++ more) (hq : s.q = bs ++ rest)
    (hroom : (s.port p).r + bs.length ≤ s.cfg.rxbCap)
    (hscan : scanThrough s.cfg.eom (s.port p).tidx bs = some y) :
    ∃ t, run bs.length s = .next t ∧ Collects p bs s t ∧ (t.port p).tidx = y ∧ t.sched = more := by
  induction bs generalizing s with
  | nil => exact ⟨s, rfl, .refl p s, Option.some.inj hscan, hsched⟩
  | cons b bs ih =>
    rw [List.length_cons] at hroom
    rw [scanThrough] at hscan
    split at hscan
    · cases hscan
    · next hpass =>
      obtain ⟨t, hstep, hb, htidx, hsched'⟩ := h.step_rxTlm_passed hsched hq (by omega) hpass
      have hq' : t.q = bs ++ rest := (List.cons.inj (hb.q.symm.trans hq)).2
      have hroom' : (t.port p).r + bs.length ≤ t.cfg.rxbCap := by
        rw [hb.r_eq, hb.cfg, List.length_singleton]
        omega
      obtain ⟨u, hrun, hbs, hy, hmore⟩ :=
        ih (hb.inLastPhase h) hsched' hq' hroom' (by rw [hb.cfg, htidx]; exact hscan)
      exact ⟨u, (run_succ hstep _).trans hrun, hb.trans hbs, hy, hmore⟩

/-- The turns of the engine over the first k bytes of z, where the scan passes z and more turns are to come. -/
theorem InLastPhase.run_rxTlm_take {z : List Byte} {y : Bool} {k m : Nat} (h : InLastPhase .tlmReq p s)
    (hq : s.q = z ++ rest) (hroom : (s.port p).r + z.length ≤ s.cfg.rxbCap)
    (hscan : scanThrough s.cfg.eom (s.port p).tidx z = some y) (hk : k ≤ z.length) (hm : k ≤ m) :
    ∃ t, run k (s.placing (engineSteps p m)) = .next t ∧ Collects p (z.take k) s t ∧
      (k = z.length → (t.port p).tidx = y) ∧ t.sched = engineSteps p (m - k) ++ s.sched := by
  obtain ⟨y', hscan'⟩ := scanThrough_take hscan k
  have hlen : (z.take k).length = k := List.length_take_of_le hk
  have hsched : (s.placing (engineSteps p m)).sched =
      engineSteps p (z.take k).length ++ (engineSteps p (m - k) ++ s.sched) := by
    rw [hlen, ← List.append_assoc, ← engineSteps_add, Nat.add_sub_cancel' hm]
    rfl
  have hq' : (s.placing (engineSteps p m)).q = z.take k ++ (z.drop k ++ rest) := by
    rw [← List.append_assoc, List.take_append_drop]
    exact hq
  obtain ⟨t, hrun, hcollects, htidx, hmore⟩ := InLastPhase.run_rxTlm (s := s.placing (engineSteps p m)) { h with }
    hsched hq' (Nat.le_trans (by rw [hlen]; exact Nat.add_le_add_left hk _) hroom) hscan'
  refine ⟨t, hlen ▸ hrun, { hcollects with }, fun hall => ?_, hmore⟩
  rw [hall, List.take_length, hscan] at hscan'
  exact htidx.trans (Option.some.inj hscan').symm

/-- EOM after an unpaired ESC completes TLM_REQ. -/
theorem InLastPhase.step_rxTlm_found (h : InLastPhase .tlmReq p s) (hsched : s.sched = .engine p :: more)
    (hq : s.q = s.cfg.eom :: rest) (hroom : (s.port p).r ≠ s.cfg.rxbCap) (htidx : (s.port p).tidx = true)
    (hown : s.token = { held := true, owner := p }) :
    let out := (destuff (slice (s.rxbByte p) s.cfg.tlmHdrLen ((s.port p).r - 1))).take (s.lenOperand p)
    ∃ t, step s = .next t ∧ Delivers p ((s.port p).storing s.cfg.eom) 0x00#8 out.length out
      { s with sched := more } t := by
  intro out
  have hdelivers := rxTlmByte_found_effect (s := s.popped p rest more) (b := s.cfg.eom) h.lt_length ⟨htidx, rfl⟩ hown
  exact ⟨_, h.step_rxTlm hsched hq hroom, { hdelivers with }⟩

end

/-! ### The statement -/

/-- In RX_TLM a port of a sound state runs TLM_REQ and holds the token. -/
theorem Sound.rxTlm {p : Nat} {s : State} (h : Sound s) (hph : (s.port p).phase = .rxTlm) :
    InLastPhase .tlmReq p s ∧ s.token = { held := true, owner := p } := by
  obtain ⟨i, _, hapart, hi⟩ := h.inProgress_of_busy (p := p) (by rw [State.busy, hph]; rfl)
  have hmem : .rxTlm ∈ phasesOf i := hph ▸ hi.phase_mem
  obtain rfl : i = .tlmReq := by
    revert hmem
    cases i <;> decide
  exact ⟨⟨hapart.legal, hi.op_eq, hph⟩, (hi.token (by rw [hph]; rfl)).1⟩

theorem slice_eq_drop (f : Nat → Byte) (i j : Nat) : slice f i j = (slice f 0 j).drop i := by
  refine List.ext_getElem (by simp [slice_length]) fun k _ _ => ?_
  rw [List.getElem_drop, slice_getElem, slice_getElem, Nat.zero_add]

/-- Of a header, a body and one byte more, the body. -/
theorem slice_body {f : Nat → Byte} {hdr body : List Byte} {b : Byte}
    (h : slice f 0 (hdr.length + body.length + 1) = hdr ++ body ++ [b]) :
    slice f hdr.length (hdr.length + body.length) = body := by
  rw [slice_succ] at h
  rw [slice_eq_drop, List.append_inj_left' h rfl, List.drop_left]

/-- A header [ESC, SOM, id] with id ≠ ESC leaves TIDX at 0 (R91). -/
theorem scanThrough_header {c : Config} (hlegal : c.legal = true) {id : Byte} (hid : id ≠ ESC) :
    scanThrough c.eom false [ESC, c.som, id] = some false := by
  obtain ⟨⟨_, _, hne⟩, _⟩ := (legal_iff c).mp hlegal
  simp [scanThrough, scanByte, hne, hid]

/-- Settles O54: the scan passes the header, the stuffed body and the ESC of the terminator, each byte being stored, and
the EOM after them completes. -/
theorem telemetryReplyIsReceivedWhole : Obligations.TelemetryReplyIsReceivedWhole := by
  intro s p hdr body rest h hph hr htidx hq hhdr hscan hstuffed hfits m out
  obtain ⟨hlast, hown⟩ := h.rxTlm hph
  obtain ⟨⟨_, hne, _⟩, _⟩ := (legal_iff s.cfg).mp hlast.legal
  have hlen : (hdr ++ body ++ [ESC]).length = hdr.length + body.length + 1 := by simp [Nat.add_assoc]
  have hpasses : scanThrough s.cfg.eom false (hdr ++ body ++ [ESC]) = some true := by
    obtain ⟨thin, rfl⟩ := (exists_eq_stuff_iff body).mpr hstuffed
    simp [scanThrough_append, hscan, scanThrough_stuff hne, scanThrough, scanByte]
  have hq' : s.q = hdr ++ body ++ [ESC] ++ (s.cfg.eom :: rest) := by simp [hq]
  have hturns (k : Nat) (hk : k < m) := hlast.run_rxTlm_take (k := k) (m := m) hq' (by rw [hr, hlen]; omega)
    (htidx ▸ hpasses) (by rw [hlen]; omega) (Nat.le_of_lt hk)
  refine ⟨fun id => scanThrough_header hlast.legal, fun k hk => ?_, ?_⟩
  · obtain ⟨u, hrun, hcollects, _⟩ := hturns k hk
    exact ⟨u, hrun, (hcollects.inLastPhase hlast).phase⟩
  · obtain ⟨u, hrun, hcollects, hesc, hsched⟩ := hturns (hdr.length + body.length + 1) (Nat.lt_succ_self _)
    rw [← hlen, List.take_length] at hcollects
    have hru : (u.port p).r = hdr.length + body.length + 1 := by rw [hcollects.r_eq, hr, Nat.zero_add, hlen]
    have hqu : u.q = s.cfg.eom :: rest := List.append_cancel_left (hcollects.q.symm.trans hq')
    have hreceived : slice (u.rxbByte p) 0 (hdr.length + body.length + 1) = hdr ++ body ++ [ESC] := by
      rw [← hru, hcollects.received, hr]
      rfl
    rw [show m - (hdr.length + body.length + 1) = 1 by omega] at hsched
    obtain ⟨t, hstep, hdelivers⟩ := (hcollects.inLastPhase hlast).step_rxTlm_found (more := s.sched) (rest := rest)
      hsched (by rw [hcollects.cfg, hqu]) (by rw [hcollects.cfg, hru]; omega) (hesc hlen.symm)
      (hcollects.token.trans hown)
    replace hdelivers := hcollects.delivers hdelivers
    rw [hru, hcollects.cfg, ← hhdr, Nat.add_sub_cancel, slice_body hreceived, hcollects.lenOperand_eq] at hdelivers
    obtain ⟨_, hrest, _⟩ := hdelivers.setting
    have hport := hdelivers.port
    exact ⟨t, (run_add hrun 1).trans (run_one hstep), congrArg Port.result hport, congrArg Port.phase hport,
      congrArg Port.done hport, hdelivers.stored, hdelivers.outside, hdelivers.q, hdelivers.token, hdelivers.wire,
      hrest⟩

end Sys2Proof.Machine
end

/-! ## The whole exchange of CMD_REPLY (R59, R65, R68, R72, R73, R88) -/

section
namespace Sys2Proof.Machine

/-! ### The issue and the engine's turns up to RX_REPLY -/

section
variable {p : Nat} {s : State} {x : Port} {more : List Event}

/-- A CMD write of the word of CMD_REPLY to an idle port (R54, R65). -/
theorem step_issueCmdReply (hlegal : s.cfg.legal = true) (hp : p < s.cfg.nPorts) (hidle : s.busy p = false)
    (hlen : s.lenOperand p ≤ s.cfg.cmdCap)
    (hsched : s.sched = .hostWrite (p * 0x1000) .four 0x00000010#32 :: more) :
    step s = .next (State.setPort
      { s with sched := more, resp := .written, sel := { port := p, act := .issue } } p
      { s.port p with done := false, op := opcodeOf .cmdReply, phase := .tokenWait }) := by
  have hdecode : decodeWord 0x00000010#32 = .ok .cmdReply :=
    (decodeWord_eq_ok_iff_eq_encode _ _).mpr (by decide)
  rw [stepRunsTheIssuedCommand s p _ .cmdReply more hlegal hp hidle hsched hdecode rfl,
    exec_of_sel (p := p) (act := .issue) .cmdReply rfl]
  exact congrArg _ (if_neg (Nat.not_lt.mpr hlen))

section
variable (hlegal : s.cfg.legal = true) (hp : p < s.ports.length) (hop : x.op = opcodeOf .cmdReply)
  (hsched : s.sched = .engine p :: more)
include hlegal hp hop hsched

theorem step_setPort_cmdReply (hbusy : x.phase ≠ .idle) :
    step (s.setPort p x) = .next (cmdReplyEngine p ((s.turn p more).setPort p x)) := by
  have hport : (s.setPort p x).port p = x := port_setPort_same x hp
  refine step_engine (s := s.setPort p x) (i := .cmdReply) hlegal ?_ (by rw [hport, hop]) hsched
  rw [State.busy, hport]
  exact decide_eq_true hbusy

/-- TOKEN_WAIT with the token free (R71). -/
theorem step_setPort_tokenWait (hph : x.phase = .tokenWait) (hfree : s.token.held = false) :
    step (s.setPort p x) = .next ((acquire p (s.turn p more)).setPort p { x with phase := .build }) := by
  have hphase : (((s.turn p more).setPort p x).port p).phase = .tokenWait := by
    rw [port_setPort_same x (by exact hp), hph]
  have hengine := engineOf_tokenWait (i := .cmdReply) (.inl rfl) hphase
  rw [awaitToken_of_free (s := (s.turn p more).setPort p x) _ hfree] at hengine
  rw [step_setPort_cmdReply hlegal hp hop hsched (by simp [hph])]
  exact congrArg _ (hengine.trans (updPort_setPort (acquire p (s.turn p more)) p x _))

/-- BUILD of a frame within TX_CAP (R57, R72). -/
theorem step_setPort_build (hph : x.phase = .build) (harg : x.arg = (s.port p).arg)
    (hfits : (frameCmd s.cfg (s.bytesOperand p)).length ≤ s.cfg.txCap) :
    step (s.setPort p x) = .next
      ((handoff (frameCmd s.cfg (s.bytesOperand p)) (s.turn p more)).setPort p { x with phase := .txWait }) := by
  have hport : ((s.turn p more).setPort p x).port p = x := port_setPort_same x hp
  have hbytes : ((s.turn p more).setPort p x).bytesOperand p = s.bytesOperand p := by
    rw [State.bytesOperand, lenOperand_eq, hport, Port.len, harg]
    rfl
  have hengine := engineOf_build (i := .cmdReply) (s := (s.turn p more).setPort p x) (.inl rfl) (by rw [hport, hph])
  rw [buildCommand_of_fits (by rw [hbytes]; exact hfits), hbytes] at hengine
  rw [step_setPort_cmdReply hlegal hp hop hsched (by simp [hph])]
  exact congrArg _ (hengine.trans (updPort_setPort (handoff _ (s.turn p more)) p x _))

/-- TX_WAIT with the signal set (R73, R88). -/
theorem step_setPort_txWait (hph : x.phase = .txWait) (hset : s.txDone = true) :
    step (s.setPort p x) = .next
      (State.setPort { s.turn p more with txDone := false } p { x with r := 0, phase := .rxReply }) := by
  have hphase : (((s.turn p more).setPort p x).port p).phase = .txWait := by
    rw [port_setPort_same x (by exact hp), hph]
  have hengine := engineOf_txWait (i := .cmdReply) (.inl rfl) hphase
  rw [awaitTxDone_of_set (s := (s.turn p more).setPort p x) _ hset] at hengine
  rw [step_setPort_cmdReply hlegal hp hop hsched (by simp [hph])]
  exact congrArg _ (hengine.trans (updPort_setPort { s.turn p more with txDone := false } p x _))

end

section
variable (hlegal : s.cfg.legal = true) (hp : p < s.ports.length) (hop : x.op = opcodeOf .cmdReply)
include hlegal hp hop

/-- The completion of the frame, and the engine's turn that takes it (R73). -/
theorem run_setPort_txWait (hsched : s.sched = .txComplete :: .engine p :: more) (hpend : 0 < s.txPend)
    (hph : x.phase = .txWait) : run 2 (s.setPort p x) = .next (State.setPort
      { s.turn p more with txPend := s.txPend - 1, txDone := false } p { x with r := 0, phase := .rxReply }) :=
  (run_succ (txCompletionSetsTheSignal (s.setPort p x) _ hlegal hsched hpend) 1).trans <| run_one <|
    step_setPort_txWait (s := { s with sched := .engine p :: more, txPend := s.txPend - 1, txDone := true })
      hlegal hp hop rfl hph rfl

/-- From BUILD on. -/
theorem run_setPort_build (hsched : s.sched = .engine p :: .txComplete :: .engine p :: more) (hph : x.phase = .build)
    (harg : x.arg = (s.port p).arg) (hfits : (frameCmd s.cfg (s.bytesOperand p)).length ≤ s.cfg.txCap) :
    run 3 (s.setPort p x) = .next (State.setPort
      { s.turn p more with txLog := s.txLog ++ [frameCmd s.cfg (s.bytesOperand p)], txDone := false } p
      { x with r := 0, phase := .rxReply }) :=
  (run_succ (step_setPort_build hlegal hp hop hsched hph harg hfits) 2).trans <|
    run_setPort_txWait (s := handoff _ (s.turn p _)) hlegal hp hop rfl (Nat.succ_pos _) rfl

/-- From TOKEN_WAIT on. -/
theorem run_setPort_tokenWait (hsched : s.sched = .engine p :: .engine p :: .txComplete :: .engine p :: more)
    (hph : x.phase = .tokenWait) (hfree : s.token.held = false) (harg : x.arg = (s.port p).arg)
    (hfits : (frameCmd s.cfg (s.bytesOperand p)).length ≤ s.cfg.txCap) :
    run 4 (s.setPort p x) = .next (State.setPort
      { s.turn p more with
        token := { held := true, owner := p }, txLog := s.txLog ++ [frameCmd s.cfg (s.bytesOperand p)],
        txDone := false } p
      { x with r := 0, phase := .rxReply }) :=
  (run_succ (step_setPort_tokenWait hlegal hp hop hsched hph hfree) 3).trans <|
    run_setPort_build (s := acquire p (s.turn p _)) hlegal hp hop rfl rfl harg hfits

end

end

/-- s after port p sent its frame and before it pops the first byte of the reply, with Q and the schedule given. -/
def State.awaitingReply (s : State) (p : Nat) (q : List Byte) (more : List Event) : State :=
  State.setPort
    { s.turn p more with
      token := { held := true, owner := p }, txLog := s.txLog ++ [frameCmd s.cfg (s.bytesOperand p)], txDone := false,
      resp := .written, q := q } p
    { s.port p with done := false, op := opcodeOf .cmdReply, r := 0, phase := .rxReply }

theorem port_awaitingReply {p : Nat} {s : State} (hp : p < s.ports.length) (q : List Byte) (more : List Event) :
    (s.awaitingReply p q more).port p =
      { s.port p with done := false, op := opcodeOf .cmdReply, r := 0, phase := .rxReply } := port_setPort_same _ hp

/-- From the CMD write on an idle block to RX_REPLY: the frame is on the wire and its completion is taken. -/
theorem run_cmdReply_sent {p : Nat} {s : State} {more : List Event} (hlegal : s.cfg.legal = true)
    (hports : s.ports.length = s.cfg.nPorts) (hp : p < s.cfg.nPorts) (hidle : s.busy p = false)
    (hfree : s.token.held = false) (hlen : s.lenOperand p ≤ s.cfg.cmdCap)
    (hfits : (frameCmd s.cfg (s.bytesOperand p)).length ≤ s.cfg.txCap)
    (hsched : s.sched = .hostWrite (p * 0x1000) .four 0x00000010#32 :: .engine p :: .engine p :: .txComplete ::
      .engine p :: more) :
    run 5 s = .next (s.awaitingReply p s.q more) :=
  (run_succ (step_issueCmdReply hlegal hp hidle hlen hsched) 4).trans <|
    run_setPort_tokenWait (s := { s with sched := _, resp := .written, sel := _ }) hlegal (hports ▸ hp) rfl rfl rfl
      hfree rfl hfits

/-! ### The pushes -/

theorem run_pushes {s : State} {bs : List Byte} {more : List Event} (hlegal : s.cfg.legal = true)
    (hsched : s.sched = bs.map Event.rxPush ++ more) (hroom : s.q.length + bs.length ≤ s.cfg.qDepth) :
    run bs.length s = .next { s with sched := more, q := s.q ++ bs } := by
  induction bs generalizing s with
  | nil =>
    have hmore : s.sched = more := hsched
    rw [List.append_nil, ← hmore]
    rfl
  | cons b bs ih =>
    rw [List.length_cons] at hroom
    have hstep := (pushAppendsOrDropsTheByte s b _ hlegal hsched).1 (by omega)
    have hrun := ih (s := { s with sched := bs.map Event.rxPush ++ more, q := s.q ++ [b] }) hlegal rfl
      (by simp only [List.length_append, List.length_singleton]; omega)
    rw [List.append_assoc] at hrun
    exact (run_succ hstep _).trans hrun

theorem run_awaitingReply_pushes {p : Nat} {s : State} {reply : List Byte} (more : List Event)
    (hlegal : s.cfg.legal = true) (hroom : reply.length ≤ s.cfg.qDepth) :
    run reply.length (s.awaitingReply p [] (reply.map Event.rxPush ++ more)) = .next (s.awaitingReply p reply more) :=
  run_pushes (s := s.awaitingReply p [] (reply.map Event.rxPush ++ more)) hlegal rfl
    (Nat.le_trans (Nat.le_of_eq (Nat.zero_add _)) hroom)

/-! ### RX_REPLY over several bytes -/

section
variable {p : Nat} {s : State} {bs : List Byte} {b : Byte} {rest : List Byte} {more : List Event}

theorem InLastPhase.step_rxReply (h : InLastPhase .cmdReply p s) (hsched : s.sched = .engine p :: more)
    (hq : s.q = b :: rest) : step s = .next (rxReplyByte p b (s.popped p rest more)) := by
  have hengine : cmdReplyEngine p (s.turn p more) = rxReplyByte p b (s.popped p rest more) :=
    (cmdReplyEngine_rxReply (s := s.turn p more) h.phase).trans (awaitByte_of_cons (s := s.turn p more) _ hq)
  exact (h.step_engine hsched).trans (congrArg _ hengine)

/-- Bytes before the last one of the reply are stored. -/
theorem InLastPhase.run_rxReply (h : InLastPhase .cmdReply p s)
    (hsched : s.sched = engineSteps p bs.length ++ more) (hq : s.q = bs ++ rest)
    (hless : (s.port p).r + bs.length < s.cfg.replyLen) :
    ∃ t, run bs.length s = .next t ∧ Collects p bs s t ∧ t.sched = more := by
  induction bs generalizing s with
  | nil => exact ⟨s, rfl, .refl p s, hsched⟩
  | cons b bs ih =>
    rw [List.length_cons] at hless
    have hb : Collects p [b] s ((s.popped p (bs ++ rest) (engineSteps p bs.length ++ more)).storing p b _) :=
      .of_storing h.lt_length hq _ (s.port p).tidx
    have hfirst : (s.port p).r + 1 ≠ s.cfg.replyLen := by omega
    have hstored := rxReplyByte_of_more (b := b) (s := s.popped p (bs ++ rest) (engineSteps p bs.length ++ more))
      h.lt_length hfirst
    have hstep := (h.step_rxReply hsched hq).trans (congrArg _ hstored)
    obtain ⟨t, hrun, hbs, hmore⟩ := ih (hb.inLastPhase h) rfl rfl
      (by rw [hb.r_eq, hb.cfg, List.length_singleton]; omega)
    exact ⟨t, (run_succ hstep _).trans hrun, hb.trans hbs, hmore⟩

/-- The last byte of the reply completes CMD_REPLY. -/
theorem InLastPhase.step_rxReply_last (h : InLastPhase .cmdReply p s) (hsched : s.sched = .engine p :: more)
    (hq : s.q = b :: rest) (hlast : (s.port p).r + 1 = s.cfg.replyLen)
    (hown : s.token = { held := true, owner := p }) :
    let reply := slice (s.rxbByte p) 0 (s.port p).r ++ [b]
    ∃ t, step s = .next t ∧ Delivers p ((s.port p).storing b) (reply.getD 3 0x00#8) s.cfg.replyLen reply
      { s with sched := more } t := by
  intro reply
  obtain ⟨_, _, _, _, _, ⟨hfour, _, _⟩, _⟩ := (legal_iff s.cfg).mp h.legal
  have hdelivers := rxReplyByte_last_effect (s := s.popped p rest more) (b := b) h.lt_length hlast hfour hown
  exact ⟨_, h.step_rxReply hsched hq, { hdelivers with }⟩

/-- A whole reply in Q is delivered. -/
theorem InLastPhase.run_reply {reply : List Byte} (h : InLastPhase .cmdReply p s) (hr : (s.port p).r = 0)
    (hsched : s.sched = engineSteps p reply.length ++ more) (hq : s.q = reply) (hlen : reply.length = s.cfg.replyLen)
    (hown : s.token = { held := true, owner := p }) :
    ∃ x t, run reply.length s = .next t ∧ Delivers p x (reply.getD 3 0x00#8) s.cfg.replyLen reply
      { s with sched := more } t := by
  obtain ⟨hpos, _⟩ := replyLen_bounds h.legal
  obtain rfl | ⟨front, b, rfl⟩ := List.eq_nil_or_concat' reply
  · rw [← hlen] at hpos
    cases hpos
  rw [List.length_append, List.length_singleton] at hlen hsched ⊢
  rw [engineSteps_add, List.append_assoc] at hsched
  obtain ⟨u, hrun, hcollects, hsched'⟩ := h.run_rxReply hsched hq (by rw [hr]; omega)
  have hru : (u.port p).r = front.length := by rw [hcollects.r_eq, hr, Nat.zero_add]
  have hqu : u.q = [b] := List.append_cancel_left (hcollects.q.symm.trans hq)
  obtain ⟨t, hstep, hdelivers⟩ := (hcollects.inLastPhase h).step_rxReply_last hsched' hqu
    (by rw [hru, hcollects.cfg, hlen]) (hcollects.token.trans hown)
  have hreceived : slice (u.rxbByte p) 0 (u.port p).r = front := by
    rw [hcollects.received, hr]
    rfl
  replace hdelivers := hcollects.delivers hdelivers
  rw [hreceived, hcollects.cfg] at hdelivers
  exact ⟨_, t, (run_add hrun 1).trans (run_one hstep), hdelivers⟩

end

/-! ### The statement -/

/-- Settles O58: the frame goes out (`run_cmdReply_sent`), the reply is pushed (`run_pushes`) and delivered
(`InLastPhase.run_reply`). -/
theorem commandReplyExchangeSucceeds : Obligations.CommandReplyExchangeSucceeds := by
  intro s p reply h hp hidle hfree hq _ hlen frame hfits hreply hdepth es
  obtain ⟨hlegal, hports, _⟩ := h
  have hsent := run_cmdReply_sent (s := s.placing es)
    (more := reply.map Event.rxPush ++ (engineSteps p reply.length ++ s.sched)) hlegal hports hp hidle hfree hlen hfits
    (by simp [State.placing, es, hreply])
  rw [show (s.placing es).q = [] from hq] at hsent
  have hpushed := run_awaitingReply_pushes (p := p) (s := s.placing es) (engineSteps p reply.length ++ s.sched) hlegal
    (hreply ▸ hdepth)
  have hport := port_awaitingReply (s := s.placing es) (hports ▸ hp) reply (engineSteps p reply.length ++ s.sched)
  obtain ⟨_, t, hrun, hdelivers⟩ := InLastPhase.run_reply (p := p) (more := s.sched)
    (s := (s.placing es).awaitingReply p reply (engineSteps p reply.length ++ s.sched))
    ⟨hlegal, congrArg Port.op hport, congrArg Port.phase hport⟩ (congrArg Port.r hport) rfl rfl hreply rfl
  have hes : es.length = 5 + (reply.length + reply.length) := by
    simp only [es, engineSteps, List.length_append, List.length_cons, List.length_nil, List.length_map,
      List.length_replicate, hreply]
    omega
  obtain ⟨hlog, hpend⟩ := hdelivers.wire
  obtain ⟨hclear, _⟩ := hdelivers.flags
  obtain ⟨_, hrest, _⟩ := hdelivers.setting
  have hend := hdelivers.port
  refine ⟨t, ?_, congrArg Port.result hend, congrArg Port.phase hend, congrArg Port.done hend, hdelivers.stored,
    hreply ▸ hdelivers.outside, hlog, hpend, hclear, hdelivers.token, hdelivers.q, hrest⟩
  rw [hes, run_add hsent, run_add hpushed, hrun]

end Sys2Proof.Machine
end

/-! ## The engine steps of the File-Download Reassembler (R93, R94, R96 to R99) -/

section
namespace Sys2Proof.Machine

/-! ### DL_ENTER and DL_EXIT -/

section
variable {p : Nat} {s : State}

theorem dlEnterEngine_tokenWait (hph : (s.port p).phase = .tokenWait) :
    dlEnterEngine p s = awaitToken p (openSession p) s := by rw [dlEnterEngine, hph]

theorem dlExitEngine_exec (hph : (s.port p).phase = .exec) :
    dlExitEngine p s = terminate .dlExit p .ok 0x00#8 0 s := by rw [dlExitEngine, hph]

/-- The row of DL_ENTER's success in R104 sets DL_MODE and nothing else (R93). -/
theorem openSession_eq (p : Nat) (s : State) :
    openSession p s = complete p .ok 0x00#8 0 { s with dlType := s.idOperand p, dlMode := true } := rfl

/-- The owner's row of DL_EXIT in R104 drains Q, leaves download mode and frees the token (R94). -/
theorem terminate_dlExit (hown : s.token = { held := true, owner := p }) : terminate .dlExit p .ok 0x00#8 0 s =
    complete p .ok 0x00#8 0 { s with q := [], token := { held := false, owner := 0 }, dlMode := false } := by
  have hrelease : release p (drain s) = { drain s with token := Token.free } := release_of_owner hown
  simp only [terminate, cleanupOf, cleanup, if_true, hrelease]
  rfl

end

/-- Settles O22: the free token is acquired and the session opened; while it is held the wait has no step. -/
theorem dlEnterOpensTheSession : Obligations.DlEnterOpensTheSession := by
  intro s p hp hsel hph
  have hexec : exec .dlEnter s = .next (awaitToken p (openSession p) s) :=
    (exec_of_sel .dlEnter hsel).trans (congrArg _ (dlEnterEngine_tokenWait hph))
  refine ⟨fun hfree => ?_, fun hheld => ?_⟩
  · have hreport := port_openSession (s := acquire p s) hp
    obtain ⟨hothers, hbuffers, htoken, hq, ⟨hdone, hovf, hmode, htype⟩, hwire, hsetting⟩ :=
      updPort_frame { acquire p s with dlType := s.idOperand p, dlMode := true } p fun x =>
        { x with result := { code := .ok, app := 0x00#8, length := 0#16 }, phase := .idle, done := true }
    rw [hexec, awaitToken_of_free _ hfree]
    exact ⟨_, rfl, htoken, hmode, htype, hreport, hq, hothers, hbuffers, hdone, hovf, hwire, hsetting⟩
  · rw [hexec, awaitToken_of_held _ hheld]

/-- Settles O23: the terminal step of DL_EXIT on the port that owns the session. -/
theorem dlExitClosesTheSession : Obligations.DlExitClosesTheSession := by
  intro s p hp hsel hph hown
  have hexec : exec .dlExit s = .next (terminate .dlExit p .ok 0x00#8 0 s) :=
    (exec_of_sel .dlExit hsel).trans (congrArg _ (dlExitEngine_exec hph))
  have hreport := port_terminate (s := s) .dlExit .ok 0x00#8 0 hp
  obtain ⟨hothers, hbuffers, htoken, hq, ⟨hdone, hovf, hmode, htype⟩, hwire, hsetting⟩ :=
    updPort_frame { s with q := [], token := { held := false, owner := 0 }, dlMode := false } p fun x =>
      { x with result := { code := .ok, app := 0x00#8, length := 0#16 }, phase := .idle, done := true }
  rw [terminate_dlExit hown] at hexec hreport
  exact ⟨_, hexec, hq, hmode, htoken, hreport, hothers, hbuffers, htype, hdone, hovf, hwire, hsetting⟩

/-! ### The engine of DL_RECV, phase by phase -/

section
variable {p : Nat} {s : State} {b : Byte} {rest : List Byte}

theorem dlRecvEngine_seekStart (hph : (s.port p).phase = .dlSeekStart) (hq : s.q = b :: rest) :
    dlRecvEngine p s = seekStartByte p b { s with q := rest } := by
  rw [dlRecvEngine, hph]
  exact awaitByte_of_cons _ hq

theorem dlRecvEngine_accum (hph : (s.port p).phase = .dlAccum) (hq : s.q = b :: rest) :
    dlRecvEngine p s = accumByte p b { s with q := rest } := by
  rw [dlRecvEngine, hph]
  exact awaitByte_of_cons _ hq

/-- DL_SEEK_END with room in FB (R98). -/
theorem dlRecvEngine_seekEnd (hph : (s.port p).phase = .dlSeekEnd) (hroom : (s.port p).n ≠ s.cfg.maxLen)
    (hq : s.q = b :: rest) : dlRecvEngine p s = seekEndByte p b { s with q := rest } := by
  rw [dlRecvEngine, hph]
  exact (if_neg hroom).trans (awaitByte_of_cons _ hq)

/-- DL_SEEK_END at the bound: no pop, and no row in R104 (R98). -/
theorem dlRecvEngine_full (hph : (s.port p).phase = .dlSeekEnd) (hfull : (s.port p).n = s.cfg.maxLen) :
    dlRecvEngine p s = complete p .incorrectLength 0x00#8 0 s := by
  rw [dlRecvEngine, hph]
  exact (if_pos hfull).trans (terminate_of_nothing rfl p 0x00#8 0 s)

end

/-! ### The window of DL_SEEK_START -/

/-- The window of port p, oldest byte first. -/
def State.window (s : State) (p : Nat) : List Byte := [s.windowByte p 0, s.windowByte p 1, s.windowByte p 2]

/-- b completes the start marker in the window of port p (R96). -/
def CompletesMarker (s : State) (p : Nat) (b : Byte) : Prop :=
  2 ≤ (s.port p).wcnt ∧ s.windowByte p 1 = ESC ∧ s.windowByte p 2 = s.cfg.dlStart ∧ b = s.dlType

/-- The registers of port p with b shifted into the window (R96). -/
def State.shifted (s : State) (p : Nat) (b : Byte) : Port :=
  { s.port p with
    w := (((s.port p).w.write 0 (s.windowByte p 1)).write 1 (s.windowByte p 2)).write 2 b
    wcnt := min ((s.port p).wcnt + 1) 3 }

/-- Registers with a frame begun by the start marker (R96). -/
def Port.beginning (marker : List Byte) (x : Port) : Port :=
  { x with fb := x.fb.writeBytes 0 marker, n := 3, phase := .dlAccum }

section
variable {p : Nat} {s : State} {b : Byte} {x : Port}

theorem shiftWindow_eq (p : Nat) (b : Byte) (s : State) : shiftWindow p b s = s.setPort p (s.shifted p b) := rfl

theorem windowByte_setPort (hp : p < s.ports.length) (hw : x.w = (s.shifted p b).w) :
    (s.setPort p x).windowByte p 0 = s.windowByte p 1 ∧ (s.setPort p x).windowByte p 1 = s.windowByte p 2 ∧
      (s.setPort p x).windowByte p 2 = b := by
  have hread (k : Nat) : (s.setPort p x).windowByte p k =
      ((s.shifted p b).w.read k).getD (Config.unspecified s.epoch (.window p k)) := by
    rw [State.windowByte, port_setPort_same x hp, hw, setPort_epoch]
  simp [hread, State.shifted, Memory.read_write_same, Memory.read_write_ne]

theorem window_setPort (hp : p < s.ports.length) (hw : x.w = (s.shifted p b).w) :
    (s.setPort p x).window p = [s.windowByte p 1, s.windowByte p 2, b] := by
  obtain ⟨hold, hmid, hnew⟩ := windowByte_setPort hp hw
  rw [State.window, hold, hmid, hnew]

theorem markerSeen_shiftWindow_iff (hp : p < s.ports.length) :
    (shiftWindow p b s).markerSeen p = true ↔ CompletesMarker s p b := by
  have hseen : (shiftWindow p b s).markerSeen p = true ↔ ((shiftWindow p b s).port p).wcnt = 3 ∧
      (shiftWindow p b s).window p = startMarker s.cfg s.dlType := decide_eq_true_iff
  have hcount : min ((s.port p).wcnt + 1) 3 = 3 ↔ 2 ≤ (s.port p).wcnt := by omega
  rw [hseen, shiftWindow_eq, window_setPort hp rfl, port_setPort_same _ hp, State.shifted, hcount]
  simp [startMarker, CompletesMarker]

theorem seekStartByte_of_completes (hp : p < s.ports.length) (hb : CompletesMarker s p b) :
    seekStartByte p b s = s.setPort p ((s.shifted p b).beginning (startMarker s.cfg s.dlType)) :=
  (if_pos ((markerSeen_shiftWindow_iff hp).mpr hb)).trans (updPort_setPort s p (s.shifted p b) _)

theorem seekStartByte_of_not_completes (hp : p < s.ports.length) (hb : ¬ CompletesMarker s p b) :
    seekStartByte p b s = s.setPort p (s.shifted p b) :=
  if_neg fun hseen => hb ((markerSeen_shiftWindow_iff hp).mp hseen)

/-- A frame begun holds the start marker. -/
theorem slice_beginning (hp : p < s.ports.length) (x : Port) (a b c : Byte) :
    slice ((s.setPort p (x.beginning [a, b, c])).fbByte p) 0 3 = [a, b, c] := by
  refine List.ext_getElem (slice_length _ _ _) fun k _ hk => ?_
  have hread := Memory.read_writeBytes_inside x.fb 0 k [a, b, c] hk
  rw [slice_getElem, State.fbByte, port_setPort_same _ hp, Port.beginning, hread]
  rfl

end

/-- Settles O24: the popped byte is shifted in, and the frame begins when it completes the marker. -/
theorem seekStartShiftsTheWindow : Obligations.SeekStartShiftsTheWindow := by
  intro s p b rest hp hsel hph hq found
  have hexec : exec .dlRecv s = .next (seekStartByte p b { s with q := rest }) :=
    (exec_of_sel .dlRecv hsel).trans (congrArg _ (dlRecvEngine_seekStart hph hq))
  have hport (x : Port) : (State.setPort { s with q := rest } p x).port p = x := port_setPort_same x hp
  have hwindow (x : Port) (hw : x.w = (s.shifted p b).w) :=
    windowByte_setPort (s := { s with q := rest }) (x := x) (b := b) hp hw
  have hframe (x : Port) := updPort_frame { s with q := rest } p fun _ => x
  by_cases hfound : CompletesMarker s p b
  · rw [seekStartByte_of_completes (s := { s with q := rest }) hp hfound] at hexec
    obtain ⟨hold, hmid, hnew⟩ := hwindow ((s.shifted p b).beginning (startMarker s.cfg s.dlType)) rfl
    obtain ⟨hothers, hbuffers, htoken, hq', hshared⟩ :=
      hframe ((s.shifted p b).beginning (startMarker s.cfg s.dlType))
    have hmarker := slice_beginning (s := { s with q := rest }) hp (s.shifted p b) ESC s.cfg.dlStart s.dlType
    obtain ⟨hesc, hstart, htype⟩ : _ ∧ _ ∧ _ := by simpa [slice, List.range_succ] using hmarker
    refine ⟨_, hexec, hq', hold, hmid, hnew, congrArg Port.wcnt (hport _), fun _ => ⟨hesc, hstart, htype, ?_⟩,
      fun hnot => absurd hfound hnot, hothers, hbuffers, htoken, hshared⟩
    rw [hport]
    rfl
  · rw [seekStartByte_of_not_completes (s := { s with q := rest }) hp hfound] at hexec
    obtain ⟨hold, hmid, hnew⟩ := hwindow (s.shifted p b) rfl
    obtain ⟨hothers, hbuffers, htoken, hq', hshared⟩ := hframe (s.shifted p b)
    refine ⟨_, hexec, hq', hold, hmid, hnew, congrArg Port.wcnt (hport _), fun hyes => absurd hyes hfound,
      fun _ => ?_, hothers, hbuffers, htoken, hshared⟩
    rw [hport]
    rfl

/-! ### One byte stored in FB -/

/-- Registers with b stored at the end of the frame and the phase given (R97, R98). -/
def Port.appending (b : Byte) (ph : Phase) (x : Port) : Port :=
  { x with fb := x.fb.write x.n b, n := x.n + 1, phase := ph }

/-- s with b stored at the end of the frame of port p, whose phase is then ph. -/
def State.appending (s : State) (p : Nat) (b : Byte) (ph : Phase) : State :=
  s.setPort p ((s.port p).appending b ph)

theorem slice_succ_of_le (f : Nat → Byte) {i n : Nat} (h : i ≤ n) : slice f i (n + 1) = slice f i n ++ [f n] := by
  simp [slice, Nat.succ_sub h, List.range_succ, Nat.add_sub_cancel' h]

section
variable {p : Nat} {s : State} {b : Byte} {ph : Phase}

theorem port_appending (hp : p < s.ports.length) : (s.appending p b ph).port p = (s.port p).appending b ph :=
  port_setPort_same _ hp

theorem fbByte_appending (hp : p < s.ports.length) (k : Nat) :
    (s.appending p b ph).fbByte p k = if k = (s.port p).n then b else s.fbByte p k := by
  rw [State.fbByte, port_appending hp, Port.appending]
  split
  · next hk => rw [hk, Memory.read_write_same, Option.getD_some]
  · next hk => rw [Memory.read_write_ne _ _ hk]; rfl

/-- The frame before b is as it was. -/
theorem slice_appending (hp : p < s.ports.length) (i : Nat) {j : Nat} (hj : j ≤ (s.port p).n) :
    slice ((s.appending p b ph).fbByte p) i j = slice (s.fbByte p) i j :=
  slice_congr fun k hk => by rw [fbByte_appending hp, if_neg (by omega)]

/-- The frame with b behind it. -/
theorem slice_appending_last (hp : p < s.ports.length) {i : Nat} (hi : i ≤ (s.port p).n) :
    slice ((s.appending p b ph).fbByte p) i ((s.port p).n + 1) = slice (s.fbByte p) i (s.port p).n ++ [b] := by
  rw [slice_succ_of_le _ hi, slice_appending hp i (Nat.le_refl _), fbByte_appending hp, if_pos rfl]

theorem storeFrameByte_eq (hph : (s.port p).phase = ph) : storeFrameByte p b s = s.appending p b ph := by
  rw [← hph]
  rfl

theorem accumByte_eq (hp : p < s.ports.length) (hph : (s.port p).phase = .dlAccum) : accumByte p b s =
    s.appending p b (if (s.port p).n + 1 = 3 + s.cfg.minLen then .dlSeekEnd else .dlAccum) := by
  unfold accumByte
  dsimp only
  rw [storeFrameByte_eq hph, port_appending hp]
  split
  · next hlast =>
    rw [if_pos (by exact hlast)]
    exact updPort_setPort s p _ _
  · next hmore => rw [if_neg (by exact hmore)]

/-- The end test of DL_SEEK_END on the byte stored last and b (R98). -/
def EndsPacket (s : State) (p : Nat) (b : Byte) : Prop := s.fbByte p ((s.port p).n - 1) = ESC ∧ b = s.cfg.dlEnd

theorem endTest_appending_iff (hp : p < s.ports.length) (hn : 0 < (s.port p).n) :
    let t := s.appending p b .dlSeekEnd
    t.fbByte p ((t.port p).n - 2) = ESC ∧ t.fbByte p ((t.port p).n - 1) = t.cfg.dlEnd ↔ EndsPacket s p b := by
  intro t
  have hn2 : (t.port p).n - 2 = (s.port p).n - 1 := by rw [port_appending hp]; rfl
  have hn1 : (t.port p).n - 1 = (s.port p).n := by rw [port_appending hp]; rfl
  rw [hn2, hn1, fbByte_appending hp, fbByte_appending hp, if_neg (by omega), if_pos rfl]
  rfl

section
variable (hp : p < s.ports.length) (hph : (s.port p).phase = .dlSeekEnd) (hn : 0 < (s.port p).n)
include hp hph hn

theorem seekEndByte_of_ends (hends : EndsPacket s p b) :
    seekEndByte p b s = finishPacket p (s.appending p b .dlSeekEnd) := by
  rw [← storeFrameByte_eq hph]
  refine if_pos ?_
  rw [storeFrameByte_eq hph]
  exact (endTest_appending_iff hp hn).mpr hends

theorem seekEndByte_of_not_ends (hnot : ¬ EndsPacket s p b) : seekEndByte p b s = s.appending p b .dlSeekEnd := by
  rw [← storeFrameByte_eq hph]
  refine if_neg fun htest => hnot ?_
  rw [storeFrameByte_eq hph] at htest
  exact (endTest_appending_iff hp hn).mp htest

end

/-- A byte stored while the packet goes on. -/
theorem appending_effect (hp : p < s.ports.length) (b : Byte) (ph : Phase) :
    let t := s.appending p b ph
    t.port p = { s.port p with fb := (t.port p).fb, n := (s.port p).n + 1, phase := ph } ∧
      (∀ k, t.fbByte p k = if k = (s.port p).n then b else s.fbByte p k) ∧ OtherPortsSame p s t ∧
      BuffersSame s t ∧ SharedSame s t := by
  refine ⟨?_, fbByte_appending hp, updPort_frame s p fun _ => _⟩
  rw [port_appending hp]
  rfl

end

/-- Settles O25: the byte is stored, and the phase depends on the count alone. -/
theorem accumulationAppendsWithoutATest : Obligations.AccumulationAppendsWithoutATest := by
  intro s p b rest hp hsel hph hq
  have hexec : exec .dlRecv s = .next (accumByte p b { s with q := rest }) :=
    (exec_of_sel .dlRecv hsel).trans (congrArg _ (dlRecvEngine_accum hph hq))
  rw [accumByte_eq (s := { s with q := rest }) hp hph] at hexec
  obtain ⟨hport, hfb, hothers, hbuffers, htoken, hq', hshared⟩ := appending_effect (s := { s with q := rest }) hp b
    (if (s.port p).n + 1 = 3 + s.cfg.minLen then .dlSeekEnd else .dlAccum)
  exact ⟨_, hexec, hq', hfb, hport, hothers, hbuffers, htoken, hshared⟩

/-! ### The end of a packet -/

/-- The sequence counter is little-endian (R99). -/
theorem seqOf_toNat (t : List Byte) :
    (seqOf t).toNat = (t.getD 0 0x00#8).toNat + 256 * (t.getD 1 0x00#8).toNat := by
  have hlow := (t.getD 0 0x00#8).isLt
  have happend : seqOf t = (t.getD 1 0x00#8 ++ t.getD 0 0x00#8 : BitVec 16) := by
    rw [seqOf, BitVec.or_comm, BitVec.append_def]
    simp [BitVec.shiftLeftZeroExtend_eq]
  rw [happend, BitVec.toNat_append, ← Nat.shiftLeft_add_eq_or_of_lt hlow, Nat.shiftLeft_eq]
  omega

/-- The registers of a port that reports a thin packet of which len data bytes are delivered (R99). -/
def Port.finishing (thin : List Byte) (len : Nat) (x : Port) : Port :=
  { x with seq := seqOf thin, result := { code := .ok, app := 0x00#8, length := BitVec.ofNat 16 len }, phase := .idle,
           done := true }

/-- The row of DL_RECV in R104 neither drains nor releases (R99). -/
theorem finishPacket_eq (p : Nat) (s : State) :
    let thin := destuff (slice (s.fbByte p) 3 ((s.port p).n - 2))
    let out := (thin.drop 2).take s.cfg.dlDataLen
    finishPacket p s = (s.writeOut p out).setPort p ((s.port p).finishing thin out.length) := by
  unfold finishPacket
  dsimp only
  rw [terminate_of_nothing rfl]
  exact updPort_setPort (s.writeOut p _) p _ _

/-- From s to t, port p stored the last byte of a packet and completed with the thin packet: SEQ and OUT_BUF are taken
from it, and the rest of the block is as it was (R99). -/
structure Finishes (p : Nat) (thin out : List Byte) (s t : State) : Prop where
  port : t.port p = { s.port p with fb := (t.port p).fb, n := (s.port p).n + 1,
                                    result := { code := .ok, app := 0x00#8, length := BitVec.ofNat 16 out.length },
                                    seq := seqOf thin, phase := .idle, done := true }
  stored : OutHolds p out t
  outside : BuffersSameOutsideOut p out.length s t
  others : OtherPortsSame p s t
  shared : SharedSame s t

/-- The end marker is not part of the body (R98, R99). -/
theorem seekEndByte_finishes {p : Nat} {s : State} {b : Byte} (hp : p < s.ports.length)
    (hph : (s.port p).phase = .dlSeekEnd) (hn : 0 < (s.port p).n) (hends : EndsPacket s p b) :
    let thin := destuff (slice (s.fbByte p) 3 ((s.port p).n - 1))
    Finishes p thin ((thin.drop 2).take s.cfg.dlDataLen) s (seekEndByte p b s) := by
  intro thin
  have hport := port_appending (b := b) (ph := .dlSeekEnd) hp
  have hbody : slice ((s.appending p b .dlSeekEnd).fbByte p) 3 (((s.appending p b .dlSeekEnd).port p).n - 2) =
      slice (s.fbByte p) 3 ((s.port p).n - 1) := by
    rw [hport]
    exact slice_appending hp 3 (Nat.sub_le (s.port p).n 1)
  rw [seekEndByte_of_ends hp hph hn hends, finishPacket_eq, hbody, hport]
  refine ⟨?_, fun k hk => outBuf_writeOut (s.appending p b .dlSeekEnd) p k _ hk,
    fun _ ha => byteAt_writeOut_outside (s.appending p b .dlSeekEnd) p _ ha, fun p' hne => ?_,
    rfl, rfl, ⟨rfl, rfl, rfl, rfl⟩, ⟨rfl, rfl⟩, rfl, rfl, rfl, rfl⟩
  · rw [port_setPort_same _ (by simpa [State.appending] using hp)]
    rfl
  · rw [port_setPort_ne _ hne, port_writeOut, State.appending, port_setPort_ne _ hne]

/-- Settles O26: the bound comes before the pop, and the end test alone decides whether the packet is complete. -/
theorem seekEndTestsTheLastTwoBytes : Obligations.SeekEndTestsTheLastTwoBytes := by
  intro s p hp hsel hph hfour
  have hexec : exec .dlRecv s = .next (dlRecvEngine p s) := exec_of_sel .dlRecv hsel
  have hn : 0 < (s.port p).n := by omega
  refine ⟨fun hfull => ?_, fun b rest hroom hq => ⟨fun hends => ?_, fun hnot => ?_⟩⟩
  · obtain ⟨hothers, hbuffers, hshared⟩ := updPort_frame s p fun x =>
      { x with result := { code := .incorrectLength, app := 0x00#8, length := 0#16 }, phase := .idle, done := true }
    rw [hexec, dlRecvEngine_full hph hfull]
    exact ⟨_, rfl, port_complete _ _ _ hp, hothers, hbuffers, hshared⟩
  · have hfinishes := seekEndByte_finishes (s := { s with q := rest }) hp hph hn hends
    obtain ⟨htoken, hq', hflags, hwire, hsetting⟩ := hfinishes.shared
    have hport := hfinishes.port
    rw [hexec, dlRecvEngine_seekEnd hph hroom hq]
    refine ⟨_, rfl, hq', congrArg Port.result hport, fun _ => ?_, ?_, hfinishes.stored, hfinishes.outside,
      hfinishes.others, htoken, hflags, hwire, hsetting⟩
    · rw [hport]
      exact seqOf_toNat _
    · rw [hport]
      rfl
  · obtain ⟨hport, hfb, hothers, hbuffers, htoken, hq', hflags, hwire, hsetting⟩ :=
      appending_effect (s := { s with q := rest }) hp b .dlSeekEnd
    rw [hexec, dlRecvEngine_seekEnd hph hroom hq, seekEndByte_of_not_ends (s := { s with q := rest }) hp hph hn hnot]
    refine ⟨_, rfl, hq', hfb, ?_, hothers, hbuffers, htoken, hflags, hwire, hsetting⟩
    rw [hport]
    exact hph ▸ rfl

end Sys2Proof.Machine
end

/-! ## The search for the start marker byte by byte (R96, R100) -/

section
namespace Sys2Proof.Machine

/-! ### Runs of DL_RECV -/

theorem sched_placing_engineSteps (s : State) (p j k : Nat) :
    (s.placing (engineSteps p (j + k))).sched = engineSteps p j ++ (engineSteps p k ++ s.sched) := by
  rw [State.placing, engineSteps_add, List.append_assoc]

/-- Port p of a legal block runs DL_RECV and is in phase ph. -/
structure InDlRecv (ph : Phase) (p : Nat) (s : State) : Prop where
  legal : s.cfg.legal = true
  op : (s.port p).op = opcodeOf .dlRecv
  phase : (s.port p).phase = ph

/-- From s to t, port p popped the bytes in front of rest in the engine's turns in front of more; SEQ, the buffers and
the shared state that DL_RECV does not pop from are as they were (R95). -/
structure PopsTo (p : Nat) (rest : List Byte) (more : List Event) (s t : State) : Prop where
  q : t.q = rest
  sched : t.sched = more
  cfg : t.cfg = s.cfg
  token : t.token = s.token
  flags : FlagsSame s t
  buffers : BuffersSame s t
  seq : (t.port p).seq = (s.port p).seq

section
variable {p : Nat} {s t u : State} {ph : Phase} {b : Byte} {rest rest' : List Byte} {more more' : List Event}

theorem PopsTo.refl (p : Nat) (s : State) : PopsTo p s.q s.sched s s :=
  ⟨rfl, rfl, rfl, rfl, ⟨rfl, rfl, rfl, rfl⟩, fun _ => rfl, rfl⟩

theorem PopsTo.trans (h : PopsTo p rest more s t) (h' : PopsTo p rest' more' t u) : PopsTo p rest' more' s u where
  q := h'.q
  sched := h'.sched
  cfg := h'.cfg.trans h.cfg
  token := h'.token.trans h.token
  flags := h.flags.trans h'.flags
  buffers a := (h'.buffers a).trans (h.buffers a)
  seq := h'.seq.trans h.seq

/-- New registers of p after a pop, SEQ being as it was. -/
theorem PopsTo.of_setPort {x : Port} (hp : p < s.ports.length) (hseq : x.seq = (s.port p).seq) :
    PopsTo p rest more s ((s.popped p rest more).setPort p x) :=
  ⟨rfl, rfl, rfl, rfl, ⟨rfl, rfl, rfl, rfl⟩, fun _ => rfl,
    (congrArg Port.seq (port_setPort_same (s := s.popped p rest more) x hp)).trans hseq⟩

theorem InDlRecv.busy (h : InDlRecv ph p s) (hph : ph ≠ .idle) : s.busy p = true := by
  rw [State.busy, h.phase]
  exact decide_eq_true hph

theorem InDlRecv.lt_length (h : InDlRecv ph p s) (hph : ph ≠ .idle) : p < s.ports.length :=
  lt_length_of_busy (h.busy hph)

theorem InDlRecv.step (h : InDlRecv ph p s) (hph : ph ≠ .idle) (hsched : s.sched = .engine p :: more) :
    step s = .next (dlRecvEngine p (s.turn p more)) := step_engine h.legal (h.busy hph) h.op hsched

/-- In a phase of DL_RECV a port of a sound state runs it, in an open session. -/
theorem Sound.inDlRecv (h : Sound s) (hph : (s.port p).phase = ph) (hmem : ph ∈ phasesOf .dlRecv) :
    InDlRecv ph p s ∧ s.dlMode = true := by
  have hbusy : s.busy p = true := by
    rw [State.busy, hph]
    revert hmem
    cases ph <;> decide
  obtain ⟨i, _, hapart, hi⟩ := h.inProgress_of_busy hbusy
  have hmem' : ph ∈ phasesOf i := hph ▸ hi.phase_mem
  obtain rfl : i = .dlRecv := by
    revert hmem hmem'
    cases i <;> cases ph <;> decide
  exact ⟨⟨hapart.legal, hi.op_eq, hph⟩, (hi.token rfl).2⟩

end

/-! ### DL_SEEK_START over several bytes -/

/-- Port p is in DL_SEEK_START and has popped g since the issue: the window holds the last bytes of g, behind what it
held before (R96). -/
structure Seeks (p : Nat) (g : List Byte) (s : State) : Prop extends InDlRecv .dlSeekStart p s where
  wcnt : (s.port p).wcnt = min g.length 3
  window : ∃ old, s.window p <:+ old ++ g

namespace Seeks

variable {p : Nat} {s : State} {g z : List Byte} {b : Byte} {rest : List Byte} {more : List Event}

/-- Where b completes the marker in the window, the bytes popped end in the marker. -/
theorem marker_suffix (h : Seeks p g s) (hb : CompletesMarker s p b) : startMarker s.cfg s.dlType <:+ g ++ [b] := by
  obtain ⟨hcount, hesc, hstart, rfl⟩ := hb
  obtain ⟨old, hwindow⟩ := h.window
  have hlast : [ESC, s.cfg.dlStart] <:+ old ++ g := by
    rw [State.window, hesc, hstart] at hwindow
    exact (List.suffix_cons _ _).trans hwindow
  have hlen : 2 ≤ g.length := by rw [h.wcnt] at hcount; omega
  obtain ⟨pre, rfl⟩ := List.suffix_of_suffix_length_le hlast (List.suffix_append _ _) hlen
  exact ⟨pre, by simp [startMarker]⟩

/-- Behind ESC and DL_START the session type completes the marker. -/
theorem completesMarker (h : Seeks p (g ++ [ESC, s.cfg.dlStart]) s) : CompletesMarker s p s.dlType := by
  obtain ⟨old, pre, hwindow⟩ := h.window
  have hsplit : (pre ++ [s.windowByte p 0]) ++ [s.windowByte p 1, s.windowByte p 2] =
      (old ++ g) ++ [ESC, s.cfg.dlStart] := by simpa [State.window] using hwindow
  have hlast := List.append_inj_right' hsplit rfl
  have hcount := h.wcnt
  simp only [List.length_append, List.length_cons, List.length_nil] at hcount
  refine ⟨by omega, ?_, ?_, rfl⟩
  · exact (List.cons.inj hlast).1
  · exact (List.cons.inj (List.cons.inj hlast).2).1

theorem lt_length (h : Seeks p g s) : p < s.ports.length := h.toInDlRecv.lt_length (by decide)

theorem step_byte (h : Seeks p g s) (hsched : s.sched = .engine p :: more) (hq : s.q = b :: rest) :
    step s = .next (seekStartByte p b (s.popped p rest more)) :=
  (h.toInDlRecv.step (by decide) hsched).trans
    (congrArg _ (dlRecvEngine_seekStart (s := s.turn p more) h.phase hq))

/-- A byte that completes no marker is shifted in, and the search goes on. -/
theorem step_passed (h : Seeks p g s) (hsched : s.sched = .engine p :: more) (hq : s.q = b :: rest)
    (hnot : ¬ CompletesMarker s p b) :
    ∃ t, step s = .next t ∧ Seeks p (g ++ [b]) t ∧ PopsTo p rest more s t := by
  have hp := h.lt_length
  have hport := port_setPort_same (s := s.popped p rest more) (s.shifted p b) hp
  have hstep := h.step_byte hsched hq
  rw [seekStartByte_of_not_completes (s := s.popped p rest more) hp hnot] at hstep
  refine ⟨_, hstep, { legal := h.legal, op := ?_, phase := ?_, wcnt := ?_, window := ?_ }, .of_setPort hp rfl⟩
  · exact (congrArg Port.op hport).trans h.op
  · exact (congrArg Port.phase hport).trans h.phase
  · have hcount := h.wcnt
    refine (congrArg Port.wcnt hport).trans ?_
    simp only [State.shifted, List.length_append, List.length_singleton]
    omega
  · obtain ⟨old, pre, hwindow⟩ := h.window
    refine ⟨old, pre ++ [s.windowByte p 0], ?_⟩
    have hshifted : ((s.popped p rest more).setPort p (s.shifted p b)).window p =
        [s.windowByte p 1, s.windowByte p 2, b] := window_setPort (s := s.popped p rest more) hp rfl
    refine (congrArg _ hshifted).trans ?_
    rw [← List.append_assoc, ← hwindow]
    simp [State.window]

/-- Bytes without a marker are popped and the search goes on. -/
theorem run_passed (h : Seeks p g s) (hsched : s.sched = engineSteps p z.length ++ more) (hq : s.q = z ++ rest)
    (hnone : ¬ startMarker s.cfg s.dlType <:+: g ++ z) :
    ∃ t, run z.length s = .next t ∧ Seeks p (g ++ z) t ∧ PopsTo p rest more s t := by
  induction z generalizing g s with
  | nil =>
    refine ⟨s, rfl, by rwa [List.append_nil], ?_⟩
    obtain rfl : s.q = rest := hq
    obtain rfl : s.sched = more := hsched
    exact .refl p s
  | cons b z ih =>
    rw [List.append_cons] at hnone
    have hnot : ¬ CompletesMarker s p b := fun hb =>
      hnone ((h.marker_suffix hb).isInfix.trans ⟨[], z, rfl⟩)
    obtain ⟨t, hstep, ht, hpops⟩ := h.step_passed hsched hq hnot
    obtain ⟨_, _, _, htype⟩ := hpops.flags
    obtain ⟨u, hrun, hu, hpops'⟩ := ih ht hpops.sched hpops.q (by rwa [hpops.cfg, htype])
    exact ⟨u, (run_succ hstep _).trans hrun, by rwa [List.append_cons], hpops.trans hpops'⟩

/-- The engine's turns over the first k bytes of v, which hold no marker, where j more turns are to come. -/
theorem run_take {v : List Byte} {j k : Nat} (h : Seeks p [] s) (hq : s.q = v ++ rest) (hk : k ≤ v.length)
    (hnone : ¬ startMarker s.cfg s.dlType <:+: v.take k) :
    ∃ t, run k (s.placing (engineSteps p (k + j))) = .next t ∧ Seeks p (v.take k) t ∧
      PopsTo p (v.drop k ++ rest) (engineSteps p j ++ s.sched) s t := by
  have hlen : (v.take k).length = k := List.length_take_of_le hk
  have hsched := sched_placing_engineSteps s p k j
  rw [← hlen] at hsched
  have hq' : s.q = v.take k ++ (v.drop k ++ rest) := by rw [← List.append_assoc, List.take_append_drop, hq]
  obtain ⟨t, hrun, ht, hpops⟩ :=
    run_passed (s := s.placing (engineSteps p ((v.take k).length + j))) (g := []) { h with } hsched hq' hnone
  rw [hlen] at hrun
  exact ⟨t, hrun, ht, { hpops with }⟩

/-- The byte that completes the marker begins the frame. -/
theorem step_found (h : Seeks p g s) (hsched : s.sched = .engine p :: more) (hq : s.q = b :: rest)
    (hb : CompletesMarker s p b) :
    ∃ t, step s = .next t ∧ (t.port p).phase = .dlAccum ∧ (t.port p).n = 3 ∧
      slice (t.fbByte p) 0 3 = startMarker s.cfg s.dlType ∧ PopsTo p rest more s t := by
  have hp := h.lt_length
  have hport := port_setPort_same (s := s.popped p rest more)
    ((s.shifted p b).beginning (startMarker s.cfg s.dlType)) hp
  have hstep := h.step_byte hsched hq
  rw [seekStartByte_of_completes (s := s.popped p rest more) hp hb] at hstep
  exact ⟨_, hstep, congrArg Port.phase hport, congrArg Port.n hport,
    slice_beginning (s := s.popped p rest more) hp (s.shifted p b) _ _ _, .of_setPort hp rfl⟩

end Seeks

/-! ### The statement -/

/-- Where no copy of m begins inside g, no beginning of g ++ m but the whole holds one. -/
theorem not_contains_take {g m : List Byte} {k : Nat} (hnone : ∀ j < g.length, ((g ++ m).drop j).take m.length ≠ m)
    (hk : k < g.length + m.length) : ¬ m <:+: (g ++ m).take k := by
  rintro ⟨a, c, hsplit⟩
  have hlen := congrArg List.length hsplit
  simp only [List.length_append, List.length_take] at hlen
  refine hnone a.length (by omega) ?_
  have hall : g ++ m = a ++ (m ++ (c ++ (g ++ m).drop k)) := by
    rw [← List.append_assoc, ← List.append_assoc, hsplit, List.take_append_drop]
  rw [hall, List.drop_left, List.take_left]

/-- Settles O55: the search passes every beginning of the stream that holds no marker, so all of it but the last byte
of the marker, which completes it. -/
theorem startMarkerIsFoundAtItsFirstOccurrence : Obligations.StartMarkerIsFoundAtItsFirstOccurrence := by
  intro s p garbage rest h hph hwcnt marker hq hnone m
  have hseeks : Seeks p [] s :=
    { (h.inDlRecv hph (by decide)).1 with wcnt := hwcnt, window := ⟨s.window p, by simp⟩ }
  have hall : (garbage ++ marker).length = m := List.length_append
  have hturns (j k : Nat) (hm : k + (j + 1) = m) :=
    hseeks.run_take (j := j + 1) (k := k) hq (by omega) (not_contains_take hnone (show k < m by omega))
  refine ⟨fun k hk => ?_, ?_⟩
  · have hm : k + (m - k - 1 + 1) = m := by omega
    obtain ⟨u, hrun, hu, _⟩ := hturns (m - k - 1) k hm
    rw [hm] at hrun
    exact ⟨u, hrun, hu.phase⟩
  · obtain ⟨u, hrun, hu, hpops⟩ := hturns 0 (garbage.length + 2) rfl
    obtain ⟨_, _, _, htype⟩ := hpops.flags
    have hsplit : garbage ++ marker = (garbage ++ [ESC, s.cfg.dlStart]) ++ [s.dlType] := by simp [marker]
    have hlen : (garbage ++ [ESC, s.cfg.dlStart]).length = garbage.length + 2 := by simp
    rw [hsplit, ← hlen, List.take_left, ← hpops.cfg] at hu
    have hqu : u.q = u.dlType :: rest := by
      rw [hpops.q, hsplit, ← hlen, List.drop_left, htype]
      rfl
    obtain ⟨t, hstep, hphase, hn, hslice, hpops'⟩ := hu.step_found hpops.sched hqu hu.completesMarker
    rw [hpops.cfg, htype] at hslice
    exact ⟨t, (run_add hrun 1).trans (run_one hstep), hphase, hn, hslice, hpops'.q, hpops'.sched,
      (hpops.trans hpops').buffers⟩

end Sys2Proof.Machine
end

/-! ## The reassembly of a packet byte by byte (R97 to R100) -/

section
namespace Sys2Proof.Machine

/-- The phase of DL_RECV with k bytes stored behind the start marker (R97). -/
def framePhase (c : Config) (k : Nat) : Phase := if k < c.minLen then .dlAccum else .dlSeekEnd

/-- An accepted end marker ends at index j of y, the bytes behind the start marker (R97, R98). -/
def EndsAt (c : Config) (y : List Byte) (j : Nat) : Prop :=
  c.minLen ≤ j ∧ y[j - 1]? = some ESC ∧ y[j]? = some c.dlEnd

/-- DL_RECV on port p has stored y behind the start marker (R97, R98). -/
structure Reassembles (p : Nat) (y : List Byte) (s : State) : Prop
    extends InDlRecv (framePhase s.cfg y.length) p s where
  n : (s.port p).n = 3 + y.length
  stored : slice (s.fbByte p) 3 (s.port p).n = y

theorem framePhase_ne_idle (c : Config) (k : Nat) : framePhase c k ≠ .idle := by
  unfold framePhase
  split <;> decide

theorem framePhase_of_lt {c : Config} {k : Nat} (h : k < c.minLen) : framePhase c k = .dlAccum := if_pos h

theorem framePhase_of_le {c : Config} {k : Nat} (h : c.minLen ≤ k) : framePhase c k = .dlSeekEnd :=
  if_neg (Nat.not_lt.mpr h)

theorem endsAt_append_left {c : Config} {y z : List Byte} {j : Nat} (hj : j < y.length) :
    EndsAt c (y ++ z) j ↔ EndsAt c y j := by
  rw [EndsAt, EndsAt, List.getElem?_append_left (by omega), List.getElem?_append_left hj]

namespace Reassembles

variable {p : Nat} {s : State} {y z : List Byte} {b : Byte} {rest : List Byte} {more : List Event}

theorem lt_length (h : Reassembles p y s) : p < s.ports.length := h.toInDlRecv.lt_length (framePhase_ne_idle _ _)

theorem minLen_pos (h : Reassembles p y s) : 0 < s.cfg.minLen := by
  obtain ⟨_, _, hfour, _⟩ := (legal_iff s.cfg).mp h.legal
  omega

/-- The bytes stored, one by one. -/
theorem getElem?_eq (h : Reassembles p y s) {k : Nat} (hk : k < y.length) : y[k]? = some (s.fbByte p (3 + k)) := by
  have hslice := slice_getElem (s.fbByte p) 3 (s.port p).n k (by rw [h.stored]; exact hk)
  simp only [h.stored] at hslice
  rw [List.getElem?_eq_getElem hk, hslice]

/-- The end test of DL_SEEK_END on the bytes behind the start marker. -/
theorem endsPacket_iff (h : Reassembles p y s) (hlen : s.cfg.minLen ≤ y.length) :
    EndsPacket s p b ↔ EndsAt s.cfg (y ++ [b]) y.length := by
  have hpos := h.minLen_pos
  have hlast : 3 + (y.length - 1) = (s.port p).n - 1 := by rw [h.n]; omega
  rw [EndsAt, List.getElem?_append_left (by omega), h.getElem?_eq (by omega), hlast, List.getElem?_concat_length]
  simp [EndsPacket, hlen]

theorem step_engine (h : Reassembles p y s) (hsched : s.sched = .engine p :: more) :
    step s = .next (dlRecvEngine p (s.turn p more)) := h.toInDlRecv.step (framePhase_ne_idle _ _) hsched

/-- A byte that ends no packet is stored. -/
theorem dlRecvEngine_appends (h : Reassembles p y s) (hq : s.q = b :: rest) (hroom : 3 + y.length ≠ s.cfg.maxLen)
    (hnot : ¬ EndsAt s.cfg (y ++ [b]) y.length) (more : List Event) :
    dlRecvEngine p (s.turn p more) = (s.popped p rest more).appending p b (framePhase s.cfg (y.length + 1)) := by
  rcases Nat.lt_or_ge y.length s.cfg.minLen with hlt | hge
  · have hph := h.phase.trans (framePhase_of_lt hlt)
    refine (dlRecvEngine_accum (s := s.turn p more) hph hq).trans
      ((accumByte_eq (s := s.popped p rest more) h.lt_length hph).trans (congrArg _ ?_))
    rcases Nat.lt_or_ge (y.length + 1) s.cfg.minLen with hmore | hlast
    · rw [framePhase_of_lt hmore]
      exact if_neg (show ¬ (s.port p).n + 1 = 3 + s.cfg.minLen by rw [h.n]; omega)
    · rw [framePhase_of_le hlast]
      exact if_pos (show (s.port p).n + 1 = 3 + s.cfg.minLen by rw [h.n]; omega)
  · have hph := h.phase.trans (framePhase_of_le hge)
    rw [framePhase_of_le (Nat.le_succ_of_le hge)]
    exact (dlRecvEngine_seekEnd (s := s.turn p more) hph (by exact h.n ▸ hroom) hq).trans
      (seekEndByte_of_not_ends (s := s.popped p rest more) h.lt_length hph (show 0 < (s.port p).n by rw [h.n]; omega)
        fun hends => hnot ((h.endsPacket_iff hge).mp hends))

theorem step_stored (h : Reassembles p y s) (hsched : s.sched = .engine p :: more) (hq : s.q = b :: rest)
    (hroom : 3 + y.length ≠ s.cfg.maxLen) (hnot : ¬ EndsAt s.cfg (y ++ [b]) y.length) :
    ∃ t, step s = .next t ∧ Reassembles p (y ++ [b]) t ∧ PopsTo p rest more s t := by
  have hp := h.lt_length
  have hport := port_appending (s := s.popped p rest more) (b := b) (ph := framePhase s.cfg (y.length + 1)) hp
  have hn : 3 ≤ (s.port p).n := by rw [h.n]; omega
  refine ⟨_, (h.step_engine hsched).trans (congrArg _ (h.dlRecvEngine_appends hq hroom hnot more)),
    { legal := h.legal, op := ?_, phase := ?_, n := ?_, stored := ?_ }, .of_setPort hp rfl⟩
  · exact (congrArg Port.op hport).trans h.op
  · rw [List.length_append]
    exact congrArg Port.phase hport
  · rw [List.length_append, ← Nat.add_assoc, ← h.n]
    exact congrArg Port.n hport
  · rw [congrArg Port.n hport]
    exact (slice_appending_last (s := s.popped p rest more) hp hn).trans (congrArg (· ++ [b]) h.stored)

/-- Bytes that end no packet are stored while there is room. -/
theorem run_stored (h : Reassembles p y s) (hsched : s.sched = engineSteps p z.length ++ more) (hq : s.q = z ++ rest)
    (hroom : 3 + (y ++ z).length ≤ s.cfg.maxLen)
    (hnone : ∀ j, y.length ≤ j → j < (y ++ z).length → ¬ EndsAt s.cfg (y ++ z) j) :
    ∃ t, run z.length s = .next t ∧ Reassembles p (y ++ z) t ∧ PopsTo p rest more s t := by
  induction z generalizing y s with
  | nil =>
    refine ⟨s, rfl, by rwa [List.append_nil], ?_⟩
    obtain rfl : s.q = rest := hq
    obtain rfl : s.sched = more := hsched
    exact .refl p s
  | cons b z ih =>
    rw [List.append_cons] at hroom hnone
    have hlen : (y ++ [b]).length = y.length + 1 := List.length_append
    have hall : (y ++ [b] ++ z).length = y.length + 1 + z.length := by rw [List.length_append, hlen]
    rw [hall] at hroom hnone
    have hnot : ¬ EndsAt s.cfg (y ++ [b]) y.length := fun hends =>
      hnone y.length (Nat.le_refl _) (by omega) ((endsAt_append_left (by omega)).mpr hends)
    obtain ⟨t, hstep, ht, hpops⟩ := h.step_stored hsched hq (by omega) hnot
    obtain ⟨u, hrun, hu, hpops'⟩ := ih ht hpops.sched hpops.q (by rwa [hpops.cfg, hall])
      (by rw [hpops.cfg, hall, hlen]; exact fun j hj => hnone j (by omega))
    exact ⟨u, (run_succ hstep _).trans hrun, by rwa [List.append_cons], hpops.trans hpops'⟩

/-- The same from the start marker on, where j more turns are to come. -/
theorem run_placing (h : Reassembles p [] s) (j : Nat) (hq : s.q = z ++ rest) (hroom : 3 + z.length ≤ s.cfg.maxLen)
    (hnone : ∀ i < z.length, ¬ EndsAt s.cfg z i) :
    ∃ t, run z.length (s.placing (engineSteps p (z.length + j))) = .next t ∧ Reassembles p z t ∧
      PopsTo p rest (engineSteps p j ++ s.sched) s t := by
  obtain ⟨t, hrun, ht, hpops⟩ := run_stored (s := s.placing (engineSteps p (z.length + j))) (y := []) { h with }
    (sched_placing_engineSteps s p z.length j) hq hroom fun i _ => hnone i
  exact ⟨t, hrun, ht, { hpops with }⟩

/-- The end marker completes the packet. -/
theorem step_finishes (h : Reassembles p (y ++ [ESC]) s) (hlen : s.cfg.minLen ≤ y.length + 1)
    (hsched : s.sched = .engine p :: more) (hq : s.q = s.cfg.dlEnd :: rest)
    (hroom : 3 + (y.length + 1) ≠ s.cfg.maxLen) :
    ∃ t, step s = .next t ∧
      Finishes p (destuff y) (((destuff y).drop 2).take s.cfg.dlDataLen) (s.popped p rest more) t := by
  have hylen : (y ++ [ESC]).length = y.length + 1 := List.length_append
  have hn : (s.port p).n = 3 + y.length + 1 := by rw [h.n, hylen, Nat.add_assoc]
  have hph := h.phase.trans (framePhase_of_le (by omega))
  have hstored := h.stored
  rw [hn, slice_succ_of_le _ (Nat.le_add_right 3 _)] at hstored
  obtain ⟨hbody, hesc⟩ := List.append_inj' hstored rfl
  have hlast : (s.port p).n - 1 = 3 + y.length := by omega
  have hends : EndsPacket s p s.cfg.dlEnd := ⟨by rw [hlast]; exact (List.cons.inj hesc).1, rfl⟩
  have hengine := dlRecvEngine_seekEnd (s := s.turn p more) hph (by exact h.n ▸ hylen ▸ hroom) hq
  refine ⟨_, (h.step_engine hsched).trans (congrArg _ hengine), ?_⟩
  rw [← hbody, ← hlast]
  exact seekEndByte_finishes (s := s.popped p rest more) h.lt_length hph (show 0 < (s.port p).n by omega) hends

/-- At the bound DL_RECV ends with INCORRECT_LENGTH and pops nothing. -/
theorem step_full (h : Reassembles p y s) (hsched : s.sched = .engine p :: more) (hfull : 3 + y.length = s.cfg.maxLen) :
    step s = .next (complete p .incorrectLength 0x00#8 0 (s.turn p more)) := by
  obtain ⟨_, _, _, hmax, _⟩ := (legal_iff s.cfg).mp h.legal
  have hph := h.phase.trans (framePhase_of_le (by omega))
  exact (h.step_engine hsched).trans
    (congrArg _ (dlRecvEngine_full (s := s.turn p more) hph (h.n.trans hfull)))

end Reassembles

/-! ### The statements -/

/-- A port of a sound state with no more than the start marker in FB. -/
theorem Sound.reassembles {p : Nat} {s : State} (h : Sound s) (hph : (s.port p).phase = .dlAccum)
    (hn : (s.port p).n = 3) : Reassembles p [] s ∧ s.dlMode = true := by
  obtain ⟨hrecv, hmode⟩ := h.inDlRecv hph (by decide)
  obtain ⟨_, _, hfour, _⟩ := (legal_iff s.cfg).mp hrecv.legal
  have hphase := framePhase_of_lt (c := s.cfg) (k := 0) (by omega)
  refine ⟨{ hrecv with phase := hph.trans hphase.symm, n := hn, stored := ?_ }, hmode⟩
  rw [hn]
  rfl

/-- Settles O57: no byte of x ends a packet, so all are stored, and the next turn finds FB full. -/
theorem overlongDownloadIsCutOff : Obligations.OverlongDownloadIsCutOff := by
  intro s p x rest h hph hn hq hlen hnone
  obtain ⟨hempty, hmode⟩ := h.reassembles hph hn
  obtain ⟨u, hrun, hu, hpops⟩ :=
    hempty.run_placing 1 hq (by omega) fun j hj ⟨hmin, hends⟩ => hnone j hmin hj hends
  have hstep := hu.step_full hpops.sched (by rw [hpops.cfg]; omega)
  have hport := port_complete (s := u.turn p s.sched) .incorrectLength 0x00#8 0 hu.lt_length
  obtain ⟨_, _, hmode', _⟩ := hpops.flags
  exact ⟨_, (run_add hrun 1).trans (run_one hstep), congrArg Port.result hport, congrArg Port.phase hport,
    congrArg Port.done hport, hpops.q, (congrArg Port.seq hport).trans hpops.seq, hpops.buffers, hpops.token,
    hmode'.trans hmode, rfl⟩

/-- A body of three bytes destuffs to two at least (R84, R99). -/
theorem two_le_destuff_length {body : List Byte} (h : 3 ≤ body.length) : 2 ≤ (destuff body).length := by
  have hlen := destuff_length_add_skipped body
  have hhalf := skipped_le_destuff_length body
  omega

/-- Settles O56: the bytes up to the ESC of the end marker are stored, and the DL_END after it completes the packet. -/
theorem downloadPacketIsReassembled : Obligations.DownloadPacketIsReassembled := by
  intro s p body rest h hph hn x hq hmin hmax hnone thin out
  obtain ⟨hempty, hmode⟩ := h.reassembles hph hn
  obtain ⟨_, _, hfour, _⟩ := (legal_iff s.cfg).mp hempty.legal
  have hx : x = (body ++ [ESC]) ++ [s.cfg.dlEnd] := by simp [x]
  have hxlen : x.length = (body ++ [ESC]).length + 1 := by simp [x]
  have hzlen : (body ++ [ESC]).length = body.length + 1 := by simp
  have hbefore : ∀ i < (body ++ [ESC]).length, ¬ EndsAt s.cfg (body ++ [ESC]) i := by
    intro i hi hends
    obtain ⟨hge, hmarker⟩ := (endsAt_append_left (z := [s.cfg.dlEnd]) hi).mpr hends
    exact hnone i hge (by omega) (hx ▸ hmarker)
  obtain ⟨u, hrun, hu, hpops⟩ :=
    hempty.run_placing 1 (rest := s.cfg.dlEnd :: rest) (by simp [hq, x]) (by omega) hbefore
  obtain ⟨t, hstep, hfinishes⟩ := hu.step_finishes (rest := rest) (more := s.sched) (by rw [hpops.cfg]; omega)
    hpops.sched (by rw [hpops.cfg, hpops.q]) (by rw [hpops.cfg]; omega)
  rw [hpops.cfg] at hfinishes
  have hport := hfinishes.port
  obtain ⟨htoken, hq', ⟨_, _, hmode', _⟩, _, _, hsched, _⟩ := hfinishes.shared
  obtain ⟨_, _, hmode'', _⟩ := hpops.flags
  refine ⟨t, ?_, two_le_destuff_length (by omega), congrArg Port.result hport, ?_, congrArg Port.phase hport,
    congrArg Port.done hport, hfinishes.stored, fun a ha => (hfinishes.outside a ha).trans (hpops.buffers a), hq',
    htoken.trans hpops.token, (hmode'.trans hmode'').trans hmode, hsched⟩
  · rw [hxlen]
    exact (run_add hrun 1).trans (run_one hstep)
  · rw [hport]
    exact seqOf_toNat _

end Sys2Proof.Machine
end

/-! ## The rules of 60_exceptions.md: how an operation ends, and which port a step is about (R101 to R104, R113) -/

section
namespace Sys2Proof.Machine

/-! ### What stops a step -/

/-- Settles O7: every agent's step answers but the TX sink's with no frame, and drawing it leaves TXPEND. -/
theorem stepStopsOnlyOnASpuriousCompletion : Obligations.StepStopsOnlyOnASpuriousCompletion := by
  intro s hlegal
  rcases step_cases s with ⟨_, hstep⟩ | ⟨hillegal, _⟩
  · obtain ⟨_, _, hdraw⟩ := afterDraw_eq s
    rw [hstep, hdraw]
    exact perform_cases (nextEvent s) _
  · exact absurd (hlegal.symm.trans hillegal) (by decide)

/-! ### Rows of the cleanup table -/

/-- From s to t, Q, the token and the session change as a row of R104 says. -/
structure FollowsRow (row : Cleanup) (s t : State) : Prop where
  q : t.q = bif row.drains then [] else s.q
  token : t.token = bif row.releases then Token.free else s.token
  dlMode : t.dlMode = row.dlMode.getD s.dlMode

/-- A row that releases is performed by the port that holds the token. -/
theorem followsRow_cleanup {row : Cleanup} {p : Nat} {s : State}
    (hown : row.releases = true → s.token = { held := true, owner := p }) : FollowsRow row s (cleanup row p s) := by
  obtain ⟨drains, releases, mode⟩ := row
  have hrelease (u : State) (htoken : u.token = s.token) (h : releases = true) :
      release p u = { u with token := Token.free } := release_of_owner (htoken.trans (hown h))
  cases releases with
  | false => cases drains <;> cases mode <;> exact ⟨rfl, rfl, rfl⟩
  | true =>
    simp only [cleanup, if_true]
    rw [hrelease _ (by cases drains <;> rfl) rfl]
    cases drains <;> cases mode <;> exact ⟨rfl, rfl, rfl⟩

theorem followsRow_terminate {i : Instr} {p : Nat} {code : ResultCode} {s : State} (hmay : MayClean s p i code)
    (app : Byte) (len : Nat) : FollowsRow (cleanupOf i code) s (terminate i p code app len s) := by
  have hcleanup : FollowsRow (cleanupOf i code) s (cleanup (cleanupOf i code) p s) := by
    refine followsRow_cleanup fun hreleases => ?_
    rcases hmay with hnothing | ⟨hown, _⟩
    · rw [hnothing] at hreleases
      cases hreleases
    · exact hown
  exact { hcleanup with }

theorem FollowsRow.q_cases {row : Cleanup} {s t : State} (h : FollowsRow row s t) : t.q = s.q ∨ t.q = [] := by
  rw [h.q]
  cases row.drains
  · exact .inl rfl
  · exact .inr rfl

/-! ### How an operation ends -/

/-- The errors of each operation in progress (R104). -/
def errorCodes : Instr → List ResultCode
  | .stuff => [.allocationFailed]
  | .destuff => [.allocationFailed]
  | .cmdReply => [.busBusy, .allocationFailed, .transportFailed]
  | .cmdNoreply => [.allocationFailed, .transportFailed]
  | .tlmReq => [.busBusy, .allocationFailed, .transportFailed, .incorrectLength]
  | .dlEnter => [.busBusy]
  | .dlRecv => [.transportFailed, .incorrectLength]
  | .dlExit => []

/-- Q before and after an engine step in a phase: the receive phases pop a byte (R69). -/
def PopsIn (ph : Phase) (q q' : List Byte) : Prop := if ph ∈ byteWaits then ∃ b, q = b :: q' else q' = q

/-- The terminal steps of operation i on port p (R86 to R99, R103). -/
inductive Ending (i : Instr) (p : Nat) (s : State) : State → Prop
  /-- An error; in TOKEN_WAIT only the timeout's. -/
  | error {code : ResultCode} (hcode : code ∈ errorCodes i) (hwait : (s.port p).phase = .tokenWait → code = .busBusy) :
      Ending i p s (raiseFail i p code s)
  /-- DL_ENTER gets the token (R93). -/
  | opened (hi : i = .dlEnter) : Ending i p s (openSession p (acquire p s))
  /-- The success of any other operation. -/
  | success {u : State} {app : Byte} {len : Nat} (hi : i ≠ .dlEnter) (hph : (s.port p).phase = lastPhase i)
      (hlen : u.ports.length = s.ports.length) (hq : PopsIn (lastPhase i) s.q u.q) (htoken : u.token = s.token)
      (hmode : u.dlMode = s.dlMode) : Ending i p s (terminate i p .ok app len u)

/-- From s to t the operation i of port p goes on, or it ends in one of its terminal steps. -/
def GoesOnOrEnds (i : Instr) (p : Nat) (s t : State) : Prop := t.busy p = true ∨ Ending i p s t

theorem busy_setPort {u : State} {p : Nat} {x : Port} (hp : p < u.ports.length) (hx : x.phase ≠ .idle) :
    (u.setPort p x).busy p = true := by
  simpa [State.busy, port_setPort_same x hp] using hx

theorem popsIn_of_byteWait {ph : Phase} {b : Byte} {q rest : List Byte} (hph : ph ∈ byteWaits) (hq : q = b :: rest) :
    PopsIn ph q rest := (if_pos hph).mpr ⟨b, hq⟩

theorem popsIn_of_no_byteWait {ph : Phase} (q : List Byte) (hph : ph ∉ byteWaits) : PopsIn ph q q :=
  (if_neg hph).mpr rfl

theorem code_ne_ok_of_mem_errorCodes {i : Instr} {code : ResultCode} (h : code ∈ errorCodes i) : code ≠ .ok := by
  revert h
  cases i <;> cases code <;> decide

/-- The waits of each operation end in one of its errors (R74). -/
theorem timeoutCode_mem_errorCodes {i : Instr} {ph : Phase} (hph : ph ∈ phasesOf i) (hwait : isWait ph = true) :
    timeoutCode ph ∈ errorCodes i := by
  revert hph hwait
  cases i <;> cases ph <;> decide

theorem isWait_of_waitCondition {s : State} {p : Nat} {ph : Phase} {c : Bool} (h : s.waitCondition p ph = some c) :
    isWait ph = true := by
  cases ph with
  | idle => cases h
  | build => cases h
  | exec => cases h
  | _ => rfl

namespace GoesOnOrEnds

variable {i : Instr} {p : Nat} {s : State}

theorem of_timeout (hbusy : s.busy p = true) (hphase : (s.port p).phase ∈ phasesOf i) :
    GoesOnOrEnds i p s (timeoutStep i p s) := by
  rcases timeoutStep_cases i p s with ⟨hfalse, e⟩ | ⟨_, e⟩ <;> rw [e]
  · exact .inr (.error (timeoutCode_mem_errorCodes hphase (isWait_of_waitCondition hfalse))
      fun hph => by rw [hph]; rfl)
  · exact .inl hbusy

/-- An error of an engine step, which is in no TOKEN_WAIT. -/
theorem of_error {code : ResultCode} {ph : Phase} (hph : (s.port p).phase = ph) (hne : ph ≠ .tokenWait)
    (hcode : code ∈ errorCodes i) : GoesOnOrEnds i p s (raiseFail i p code s) :=
  .inr (.error hcode fun hwait => absurd (hph.symm.trans hwait) hne)

/-! ### The steps before the receive phases -/

theorem of_codecExec (out : List Byte) (hph : (s.port p).phase = .exec) (hlast : lastPhase i = .exec)
    (hcode : .allocationFailed ∈ errorCodes i) (hi : i ≠ .dlEnter) : GoesOnOrEnds i p s (codecExec i out p s) := by
  unfold codecExec
  split
  · exact of_error hph (by decide) hcode
  · exact .inr (.success hi (hph.trans hlast.symm) rfl (popsIn_of_no_byteWait _ (by rw [hlast]; decide)) rfl rfl)

theorem of_awaitToken_build (hp : p < s.ports.length) (hbusy : s.busy p = true) :
    GoesOnOrEnds i p s (awaitToken p (fun t => t.toPhase p .build) s) := by
  rcases awaitToken_cases p (fun t => t.toPhase p .build) s with ⟨_, e⟩ | ⟨_, e⟩ <;> rw [e]
  · exact .inl hbusy
  · exact .inl (busy_setPort hp Phase.noConfusion)

theorem of_buildCommand (hp : p < s.ports.length) (hph : (s.port p).phase = .build)
    (hcode : .allocationFailed ∈ errorCodes i) : GoesOnOrEnds i p s (buildCommand i p s) := by
  unfold buildCommand
  dsimp only
  split
  · exact of_error hph (by decide) hcode
  · exact .inl (busy_setPort hp Phase.noConfusion)

theorem of_buildTelemetry (hp : p < s.ports.length) (hph : (s.port p).phase = .build) :
    GoesOnOrEnds .tlmReq p s (buildTelemetry p s) := by
  unfold buildTelemetry
  split
  · exact of_error hph (by decide) (by decide)
  · exact .inl (busy_setPort hp Phase.noConfusion)

theorem of_awaitTxDone {k : State → State} (hbusy : s.busy p = true)
    (hk : GoesOnOrEnds i p s (k { s with txDone := false })) : GoesOnOrEnds i p s (awaitTxDone k s) := by
  rcases awaitTxDone_cases k s with ⟨_, e⟩ | ⟨_, e⟩ <;> rw [e]
  · exact .inl hbusy
  · exact hk

/-! ### The receive phases -/

theorem of_awaitByte {k : Byte → State → State} (hbusy : s.busy p = true)
    (hk : ∀ b rest, s.q = b :: rest → GoesOnOrEnds i p s (k b { s with q := rest })) :
    GoesOnOrEnds i p s (awaitByte k s) := by
  rcases awaitByte_cases k s with ⟨_, e⟩ | ⟨b, rest, hq, e⟩ <;> rw [e]
  · exact .inl hbusy
  · exact hk b rest hq

variable {b : Byte} {rest : List Byte}

theorem of_rxReplyByte (hp : p < s.ports.length) (hph : (s.port p).phase = .rxReply) (hq : s.q = b :: rest) :
    GoesOnOrEnds .cmdReply p s (rxReplyByte p b { s with q := rest }) := by
  have hbusy : (s.port p).phase ≠ .idle := by rw [hph]; decide
  unfold rxReplyByte
  dsimp only
  split
  · exact .inr (.success (by decide) hph (by simp [storeReplyByte]) (popsIn_of_byteWait (by decide) hq) rfl rfl)
  · exact .inl (busy_setPort hp hbusy)

theorem of_rxTlmByte (hp : p < s.ports.length) (hph : (s.port p).phase = .rxTlm) (hq : s.q = b :: rest) :
    GoesOnOrEnds .tlmReq p s (rxTlmByte p b { s with q := rest }) := by
  have hbusy : (s.port p).phase ≠ .idle := by rw [hph]; decide
  unfold rxTlmByte storeReplyByte
  dsimp only
  rw [updPort_eq { s with q := rest }, updPort_setPort]
  split
  · exact .inr (.success (by decide) hph (by simp) (popsIn_of_byteWait (by decide) hq) rfl rfl)
  · exact .inl (busy_setPort hp hbusy)

theorem of_seekStartByte (hp : p < s.ports.length) (hph : (s.port p).phase = .dlSeekStart) :
    GoesOnOrEnds .dlRecv p s (seekStartByte p b { s with q := rest }) := by
  have hbusy : (s.port p).phase ≠ .idle := by rw [hph]; decide
  unfold seekStartByte beginFrame shiftWindow
  dsimp only
  rw [updPort_eq { s with q := rest }, updPort_setPort]
  split
  · exact .inl (busy_setPort hp Phase.noConfusion)
  · exact .inl (busy_setPort hp hbusy)

theorem of_accumByte (hp : p < s.ports.length) (hph : (s.port p).phase = .dlAccum) :
    GoesOnOrEnds .dlRecv p s (accumByte p b { s with q := rest }) := by
  have hbusy : (s.port p).phase ≠ .idle := by rw [hph]; decide
  unfold accumByte storeFrameByte State.toPhase
  dsimp only
  rw [updPort_eq { s with q := rest }, updPort_setPort]
  split
  · exact .inl (busy_setPort hp Phase.noConfusion)
  · exact .inl (busy_setPort hp hbusy)

theorem of_seekEndByte (hp : p < s.ports.length) (hph : (s.port p).phase = .dlSeekEnd) (hq : s.q = b :: rest) :
    GoesOnOrEnds .dlRecv p s (seekEndByte p b { s with q := rest }) := by
  have hbusy : (s.port p).phase ≠ .idle := by rw [hph]; decide
  unfold seekEndByte
  dsimp only
  split
  · exact .inr (.success (by decide) hph (by simp [storeFrameByte]) (popsIn_of_byteWait (by decide) hq) rfl rfl)
  · exact .inl (busy_setPort hp hbusy)

/-! ### The engine of each command -/

theorem of_cmdReplyEngine (hp : p < s.ports.length) (hbusy : s.busy p = true) :
    GoesOnOrEnds .cmdReply p s (cmdReplyEngine p s) := by
  unfold cmdReplyEngine
  split
  · exact of_awaitToken_build hp hbusy
  · next hph => exact of_buildCommand hp hph (by decide)
  · exact of_awaitTxDone hbusy (.inl (busy_setPort hp Phase.noConfusion))
  · next hph => exact of_awaitByte hbusy fun _ _ => of_rxReplyByte hp hph
  · exact .inl hbusy

theorem of_cmdNoreplyEngine (hp : p < s.ports.length) (hbusy : s.busy p = true) :
    GoesOnOrEnds .cmdNoreply p s (cmdNoreplyEngine p s) := by
  unfold cmdNoreplyEngine
  split
  · next hph => exact of_buildCommand hp hph (by decide)
  · next hph =>
    exact of_awaitTxDone hbusy (.inr (.success (by decide) hph rfl (popsIn_of_no_byteWait _ (by decide)) rfl rfl))
  · exact .inl hbusy

theorem of_tlmReqEngine (hp : p < s.ports.length) (hbusy : s.busy p = true) :
    GoesOnOrEnds .tlmReq p s (tlmReqEngine p s) := by
  unfold tlmReqEngine rxTlmStep
  split
  · exact of_awaitToken_build hp hbusy
  · next hph => exact of_buildTelemetry hp hph
  · exact of_awaitTxDone hbusy (.inl (busy_setPort hp Phase.noConfusion))
  · next hph =>
    split
    · exact of_error hph (by decide) (by decide)
    · exact of_awaitByte hbusy fun _ _ => of_rxTlmByte hp hph
  · exact .inl hbusy

theorem of_dlRecvEngine (hp : p < s.ports.length) (hbusy : s.busy p = true) :
    GoesOnOrEnds .dlRecv p s (dlRecvEngine p s) := by
  unfold dlRecvEngine seekEndStep
  split
  · next hph => exact of_awaitByte hbusy fun _ _ _ => of_seekStartByte hp hph
  · next hph => exact of_awaitByte hbusy fun _ _ _ => of_accumByte hp hph
  · next hph =>
    split
    · exact of_error hph (by decide) (by decide)
    · exact of_awaitByte hbusy fun _ _ => of_seekEndByte hp hph
  · exact .inl hbusy

theorem of_engineOf (hp : p < s.ports.length) (hbusy : s.busy p = true) : GoesOnOrEnds i p s (engineOf i p s) := by
  cases i with
  | stuff =>
    simp only [engineOf, stuffEngine]
    split
    · next hph => exact of_codecExec _ hph rfl (by decide) (by decide)
    · exact .inl hbusy
  | destuff =>
    simp only [engineOf, destuffEngine]
    split
    · next hph => exact of_codecExec _ hph rfl (by decide) (by decide)
    · exact .inl hbusy
  | cmdReply => exact of_cmdReplyEngine hp hbusy
  | cmdNoreply => exact of_cmdNoreplyEngine hp hbusy
  | tlmReq => exact of_tlmReqEngine hp hbusy
  | dlEnter =>
    simp only [engineOf, dlEnterEngine]
    split
    · rcases awaitToken_cases p (openSession p) s with ⟨_, e⟩ | ⟨_, e⟩ <;> rw [e]
      · exact .inl hbusy
      · exact .inr (.opened rfl)
    · exact .inl hbusy
  | dlRecv => exact of_dlRecvEngine hp hbusy
  | dlExit =>
    simp only [engineOf, dlExitEngine]
    split
    · next hph => exact .inr (.success (by decide) hph rfl (popsIn_of_no_byteWait _ (by decide)) rfl rfl)
    · exact .inl hbusy

end GoesOnOrEnds

/-- An engine step or a timeout after which port p is no longer BUSY is a terminal step of its operation. -/
theorem Sound.ending {s t : State} {p : Nat} {e : Event} (h : Sound s) (hbusy : s.busy p = true)
    (he : e = .engine p ∨ e = .timeout p) (ht : perform e s = .next t) (hidle : t.busy p = false) :
    ∃ i act, InProgress s p i (s.port p) ∧ Ending i p (s.select p act) t := by
  obtain ⟨i, hapart, hi, hstep⟩ := h.serve hbusy
  have hends {act : Act} (hrun : perform e s = operationStep act p s)
      (hact : GoesOnOrEnds i p (s.select p act) (actOf i act p (s.select p act))) :
      Ending i p (s.select p act) t := by
    cases (hrun.trans (hstep act)).symm.trans ht
    exact hact.resolve_left (by simp [hidle])
  rcases he with rfl | rfl
  · exact ⟨i, .engine, hi, hends rfl (.of_engineOf hapart.lt_length hbusy)⟩
  · exact ⟨i, .timeout, hi, hends rfl (.of_timeout hbusy hi.phase_mem)⟩

/-! ### The row of an ending -/

/-- The code with which operation i ended on port p from s to t, and the row of R104 that the step followed. -/
inductive EndsByRow (i : Instr) (p : Nat) (s t : State) (code : ResultCode) : Prop
  /-- An error of the operation. -/
  | error (hcode : code ∈ errorCodes i) (hrow : FollowsRow (cleanupOf i code) s t)
  /-- DL_ENTER took the token and opened its session (R93). -/
  | opened (hi : i = .dlEnter) (hcode : code = .ok) (hq : t.q = s.q)
      (htoken : t.token = { held := true, owner := p }) (hmode : t.dlMode = true)
  /-- Any other success; Q may lose a byte before the row is performed. -/
  | success (hi : i ≠ .dlEnter) (hcode : code = .ok) {q : List Byte} (hq : PopsIn (lastPhase i) s.q q)
      (hrow : FollowsRow (cleanupOf i .ok) { s with q := q } t)

theorem Ending.endsByRow {i : Instr} {p : Nat} {s t : State} (h : Ending i p s t)
    (hi : InProgress s p i (s.port p)) (hp : p < s.ports.length) :
    EndsByRow i p s t (t.port p).result.code := by
  have hcode_terminate (code : ResultCode) (app : Byte) (len : Nat) (u : State) (hu : p < u.ports.length) :
      ((terminate i p code app len u).port p).result.code = code := by rw [port_terminate i code app len hu]
  cases h with
  | @error code hcode hwait =>
    rw [raiseFail, hcode_terminate _ _ _ _ hp]
    exact .error hcode (followsRow_terminate (hi.mayClean_error (code_ne_ok_of_mem_errorCodes hcode) hwait) _ _)
  | opened henter =>
    rw [port_openSession (s := acquire p s) hp]
    exact .opened henter rfl rfl rfl rfl
  | @success u app len henter hph hlen hq htoken hmode =>
    rw [hcode_terminate _ _ _ _ (hlen ▸ hp)]
    have hmay : MayClean u p i .ok :=
      (hi.mayClean_ok henter hph).imp id fun ⟨hown, hsession⟩ => ⟨htoken.trans hown, hmode.trans hsession⟩
    obtain ⟨hq', htoken', hmode'⟩ := followsRow_terminate hmay app len
    exact .success henter rfl hq ⟨hq', htoken ▸ htoken', hmode ▸ hmode'⟩

/-! ### The statements about endings -/

namespace EndsByRow

variable {i : Instr} {p : Nat} {s t : State} {code : ResultCode}

/-- Which step exec was asked for plays no part in the outcome (log 10). -/
theorem of_select {act : Act} (h : EndsByRow i p (s.select p act) t code) : EndsByRow i p s t code := by
  cases h with
  | error hcode hrow => exact .error hcode { hrow with }
  | opened hi hcode hq htoken hmode => exact .opened hi hcode hq htoken hmode
  | success hi hcode hq hrow => exact .success hi hcode hq { hrow with }

/-- The operations that never have the token clean nothing up (R104). -/
theorem untouched (h : EndsByRow i p s t code) (hi : i = .stuff ∨ i = .destuff ∨ i = .cmdNoreply) :
    (code ∈ errorCodes i ∨ code = .ok) ∧ t.q = s.q ∧ t.token = s.token ∧ t.dlMode = s.dlMode := by
  have hrow (c : ResultCode) : cleanupOf i c = Cleanup.nothing := by
    rcases hi with rfl | rfl | rfl <;> cases c <;> rfl
  have hlast : lastPhase i ∉ byteWaits := by rcases hi with rfl | rfl | rfl <;> decide
  cases h with
  | error hcode hfollows =>
    rw [hrow] at hfollows
    exact ⟨.inl hcode, hfollows.q, hfollows.token, hfollows.dlMode⟩
  | opened henter => rcases hi with rfl | rfl | rfl <;> cases henter
  | success _ hcode hq hfollows =>
    rw [hrow] at hfollows
    exact ⟨.inr hcode, hfollows.q.trans ((if_neg hlast).mp hq), hfollows.token, hfollows.dlMode⟩

/-- The operations that take the token for a transfer drain and release, but where they did not get it (R104). -/
theorem drained (h : EndsByRow i p s t code) (hi : i = .cmdReply ∨ i = .tlmReq) :
    (code = .busBusy ∧ t.q = s.q ∧ t.token = s.token ∧ t.dlMode = s.dlMode) ∨
    ((code ∈ errorCodes i ∨ code = .ok) ∧ code ≠ .busBusy ∧
      (t.q = [] ∧ t.token = { held := false, owner := 0 }) ∧ t.dlMode = s.dlMode) := by
  have hbusy : cleanupOf i .busBusy = Cleanup.nothing := by rcases hi with rfl | rfl <;> rfl
  have hrow {c : ResultCode} (hc : c ∈ errorCodes i ∨ c = .ok) (hne : c ≠ .busBusy) :
      cleanupOf i c = Cleanup.drainAndRelease := by
    revert hc hne
    rcases hi with rfl | rfl <;> cases c <;> decide
  cases h with
  | error hcode hfollows =>
    by_cases hb : code = .busBusy
    · rw [hb, hbusy] at hfollows
      exact .inl ⟨hb, hfollows.q, hfollows.token, hfollows.dlMode⟩
    · rw [hrow (.inl hcode) hb] at hfollows
      exact .inr ⟨.inl hcode, hb, ⟨hfollows.q, hfollows.token⟩, hfollows.dlMode⟩
  | opened henter => rcases hi with rfl | rfl <;> cases henter
  | success _ hcode _ hfollows =>
    rw [hrow (.inr rfl) (by decide)] at hfollows
    exact .inr ⟨.inr hcode, hcode ▸ (by decide), ⟨hfollows.q, hfollows.token⟩, hfollows.dlMode⟩

theorem dlEnter (h : EndsByRow .dlEnter p s t code) :
    (code = .busBusy ∧ t.q = s.q ∧ t.token = s.token ∧ t.dlMode = s.dlMode) ∨
    (code = .ok ∧ t.q = s.q ∧ t.token = { held := true, owner := p } ∧ t.dlMode = true) := by
  cases h with
  | error hcode hfollows =>
    obtain rfl := List.mem_singleton.mp hcode
    exact .inl ⟨rfl, hfollows.q, hfollows.token, hfollows.dlMode⟩
  | opened _ hcode hq htoken hmode => exact .inr ⟨hcode, hq, htoken, hmode⟩
  | success hi => exact absurd rfl hi

theorem dlRecv (h : EndsByRow .dlRecv p s t code) :
    t.token = s.token ∧ t.dlMode = s.dlMode ∧
    (((code = .transportFailed ∨ code = .incorrectLength) ∧ t.q = s.q) ∨ (code = .ok ∧ ∃ b, s.q = b :: t.q)) := by
  have hrow (c : ResultCode) : cleanupOf .dlRecv c = Cleanup.nothing := by cases c <;> rfl
  cases h with
  | error hcode hfollows =>
    rw [hrow] at hfollows
    exact ⟨hfollows.token, hfollows.dlMode, .inl ⟨by simpa [errorCodes] using hcode, hfollows.q⟩⟩
  | opened hi => cases hi
  | @success _ hcode q hq hfollows =>
    obtain ⟨b, hb⟩ := (if_pos (show lastPhase .dlRecv ∈ byteWaits by decide)).mp hq
    have hq' : t.q = q := hfollows.q
    exact ⟨hfollows.token, hfollows.dlMode, .inr ⟨hcode, b, hq' ▸ hb⟩⟩

theorem dlExit (h : EndsByRow .dlExit p s t code) :
    code = .ok ∧ (t.q = [] ∧ t.token = { held := false, owner := 0 }) ∧ t.dlMode = false := by
  cases h with
  | error hcode => exact absurd hcode List.not_mem_nil
  | opened hi => cases hi
  | success _ hcode _ hfollows => exact ⟨hcode, ⟨hfollows.q, hfollows.token⟩, hfollows.dlMode⟩

end EndsByRow

/-- Settles O28: an issue is a host write, which moves none of the three; a terminal step follows its row. -/
theorem terminalStepsFollowTheCleanupTable : Obligations.TerminalStepsFollowTheCleanupTable := by
  constructor
  · intro s t p w _ _ _ ht
    have hwrite : HostStep (p * 0x1000) .four s t := .of_hostWrite ht
    exact ⟨hwrite.q_eq, hwrite.token_eq, hwrite.dlMode_eq⟩
  intro s t p i e h hbusy hop he ht hidle code untouched drained
  obtain ⟨j, act, hi, hend⟩ := h.ending hbusy he ht hidle
  obtain rfl : i = j := by
    have hops := congrArg decodeOpcode (hop.symm.trans hi.op_eq)
    rwa [decodeOpcode_opcodeOf, decodeOpcode_opcodeOf, Option.some.injEq] at hops
  have hrow : EndsByRow i p s t code := (hend.endsByRow { hi with } (lt_length_of_busy hbusy)).of_select
  refine ⟨?_, ?_, ?_, ?_, ?_, ?_, ?_⟩
  · intro hcodec
    obtain ⟨hcode, hsame⟩ := hrow.untouched (by tauto)
    have herror : errorCodes i = [.allocationFailed] := by rcases hcodec with rfl | rfl <;> rfl
    rw [herror, List.mem_singleton] at hcode
    exact ⟨hcode.symm, hsame⟩
  · rintro rfl
    refine (hrow.drained (by decide)).imp id fun ⟨hcode, hne, hdrained⟩ => ⟨?_, hdrained⟩
    simpa [errorCodes, hne, or_assoc] using hcode
  · rintro rfl
    refine (hrow.drained (by decide)).imp id fun ⟨hcode, hne, hdrained⟩ => ⟨?_, hdrained⟩
    simpa [errorCodes, hne, or_assoc] using hcode
  · rintro rfl
    obtain ⟨hcode, hsame⟩ := hrow.untouched (by decide)
    exact ⟨by simpa [errorCodes, or_assoc] using hcode, hsame⟩
  · rintro rfl
    exact hrow.dlEnter
  · rintro rfl
    exact hrow.dlRecv
  · rintro rfl
    exact hrow.dlExit

/-- Settles O29: of the terminal steps only an error reports a code other than OK, and it changes no more than its report
and what its row of R104 says. -/
theorem errorsRecordTheirCodeAndWriteNoOutput : Obligations.ErrorsRecordTheirCodeAndWriteNoOutput := by
  intro s t p e h hbusy he ht hidle hne
  have hp := lt_length_of_busy hbusy
  obtain ⟨i, act, hi, hend⟩ := h.ending hbusy he ht hidle
  cases hend with
  | @error code hcode hwait =>
    have hport := port_terminate (s := s.select p act) i code 0x00#8 0 hp
    have hmay := InProgress.mayClean_error (s := s.select p act) { hi with } (code_ne_ok_of_mem_errorCodes hcode) hwait
    rw [raiseFail, hport]
    exact ⟨rfl, rfl, rfl, rfl, rfl, byteAt_terminate _ _ _ _ _ _,
      ⟨terminate_txLog _ _ _ _ _ _, terminate_txPend _ _ _ _ _ _⟩, terminate_txDone _ _ _ _ _ _,
      (followsRow_terminate hmay _ _).q_cases⟩
  | opened =>
    rw [port_openSession (s := acquire p (s.select p act)) hp] at hne
    exact absurd rfl hne
  | success _ _ hlen =>
    rw [port_terminate _ _ _ _ (hlen ▸ hp)] at hne
    exact absurd rfl hne

/-! ### The port that a step is about -/

theorem OpStep.event_cases {i : Instr} {p : Nat} {s t : State} {e : Event} (h : OpStep i p s e t) :
    e = .engine p ∨ e = .timeout p := by
  cases h with
  | stays he => exact he
  | fails he => exact he
  | goesOn => exact .inl rfl
  | enters => exact .inl rfl
  | succeeds => exact .inl rfl

/-- A host write changes registers of no port but that of its address (R38). -/
theorem HostStep.port_ne {a : Nat} {n : Width} {s t : State} (h : HostStep a n s t) {p : Nat} (hne : p ≠ a / 0x1000) :
    t.port p = s.port p := by
  cases h with
  | answered => rfl
  | registers r c => exact port_setPort_ne (s := { s with resp := r, sel := c }) _ hne
  | overflow => rfl
  | stored r v => exact port_writeCmdBuf _ _ _ _ _ { s with resp := r }
  | rejected r c => exact port_complete_ne (s := { s with resp := r, sel := c }) _ _ _ hne

/-- A step other than reset changes registers of no port but the one that it is about (R113). -/
theorem AgentStep.port_eq_of_portOf_ne {s t : State} {e : Event} {p : Nat} (h : AgentStep s e t) (hreset : e ≠ .reset)
    (hne : portOf e ≠ some p) : t.port p = s.port p := by
  cases h with
  | read => rfl
  | write h => exact h.port_ne fun hp => hne (congrArg some hp.symm)
  | noOperation => rfl
  | operation _ _ h =>
    refine h.port_ne fun hp => hne ?_
    rcases h.event_cases with rfl | rfl <;> exact congrArg some hp.symm
  | push b => exact port_push s b p
  | completion => rfl
  | reset => exact absurd rfl hreset

/-- A host access that covers a byte of CMD_BUF is about its port (R38, R40). -/
theorem port_of_covers_cmdBuf {a p k : Nat} {n : Width} (hk : k < 1024) (hge : a ≤ cmdBufAddr p k)
    (hlt : cmdBufAddr p k < a + n.bytes) : a / 0x1000 = p := by
  have hbytes : n.bytes ≤ 4 := by cases n <;> decide
  simp only [cmdBufAddr] at hge hlt
  omega

/-- Settles O52: the registers by the forms of a step; the bytes by what can change them (O51), which is about their own
port. -/
theorem portsArePrivate : Obligations.PortsArePrivate := by
  intro s t p h ht hreset hne hp
  obtain ⟨hlegal, _⟩ := id h
  obtain ⟨_, _, _, _, _, _, _, _, ⟨_, hcmdCap⟩, _⟩ := (legal_iff s.cfg).mp hlegal
  obtain ⟨hcmd, hout⟩ := buffersChangeOnlyByHostWriteAndSuccess s t p h ht hreset hp
  obtain ⟨_, _, _, hstep⟩ := agentStep_of_sound_step h ht
  refine ⟨hstep.port_eq_of_portOf_ne hreset hne, fun k hk => ?_, fun k hk => ?_⟩
  · by_contra hchanged
    obtain ⟨_, a, n, v, he, hge, hlt⟩ := hcmd k hk hchanged
    rw [he] at hne
    exact hne (congrArg some (port_of_covers_cmdBuf (by omega) hge hlt))
  · by_contra hchanged
    obtain ⟨he, _⟩ := hout k hk hchanged
    rw [he] at hne
    exact hne rfl

end Sys2Proof.Machine
end

/-! ## What reset leaves in every register and every byte (R36, R114) -/

section
namespace Sys2Proof.Machine

/-! ### The register words of a port after reset -/

theorem statusWord_of_port_reset {s : State} {p : Nat} (h : s.port p = Port.reset) : s.statusWord p = 0#32 := by
  rw [State.statusWord, State.busy, h]
  decide

theorem resultWord_of_port_reset {s : State} {p : Nat} (h : s.port p = Port.reset) : s.resultWord p = 0#32 := by
  rw [State.resultWord, h]
  decide

/-! ### Ports and bytes -/

@[simp] theorem port_resetBlock (s : State) (p : Nat) : (resetBlock s).port p = Port.reset :=
  port_replicate_reset rfl p

/-- No buffer byte is written right after a reset: each is a free value of the epoch that the reset begins. -/
@[simp] theorem byteAt_resetBlock (s : State) (a : Nat) :
    (resetBlock s).byteAt a = Config.unspecified (s.epoch + 1) (.host a) := rfl

@[simp] theorem rxbByte_resetBlock (s : State) (p k : Nat) :
    (resetBlock s).rxbByte p k = Config.unspecified (s.epoch + 1) (.rxb p k) := by
  rw [State.rxbByte, port_resetBlock]
  rfl

@[simp] theorem fbByte_resetBlock (s : State) (p k : Nat) :
    (resetBlock s).fbByte p k = Config.unspecified (s.epoch + 1) (.fb p k) := by
  rw [State.fbByte, port_resetBlock]
  rfl

@[simp] theorem windowByte_resetBlock (s : State) (p k : Nat) :
    (resetBlock s).windowByte p k = Config.unspecified (s.epoch + 1) (.window p k) := by
  rw [State.windowByte, port_resetBlock]
  rfl

/-! ### The statement -/

/-- Settles O42: the scheduled step is reset, which gives every port the registers of R36 and begins a new epoch, in which
no byte is written; the shared state is set field by field. -/
theorem resetGivesTheResetValues : Obligations.ResetGivesTheResetValues := by
  intro s rest hlegal hsched
  have hstep : step s = .next (resetBlock { s with sched := rest }) := step_scheduled hlegal hsched
  have hport := port_resetBlock { s with sched := rest }
  refine ⟨_, hstep, List.length_replicate, fun p _ => ?registers, rfl, rfl, rfl, rfl, rfl, rfl, rfl, rfl, rfl, rfl,
    byteAt_resetBlock _, fun p k => ⟨rxbByte_resetBlock _ p k, fbByte_resetBlock _ p k, windowByte_resetBlock _ p k⟩⟩
  case registers =>
    have hstatus := statusWord_of_port_reset (hport p)
    have hresult := resultWord_of_port_reset (hport p)
    rw [hport p]
    exact ⟨rfl, rfl, rfl, rfl, rfl, rfl, rfl, hstatus, hresult, rfl⟩

end Sys2Proof.Machine
end
